-- ==== Sys2Proof/Word.lean ====
section
/-!
DEFINITION. The bit-vector types of the spec's notation (spec/00_scope.md R10, R11): every value of the block
is an unsigned bit vector whose bit 0 is the least significant one. XOR, AND, the logical left shift,
zero extension and concatenation are core Lean's operations on `BitVec` (`^^^`, `&&&`, `<<<`, `setWidth`, `++`).
-/

namespace Sys2Proof

/-- `Bits24` (R10): the type of the stored CRC and of `crc_out`. -/
abbrev Bits24 := BitVec 24

/-- `Bits25` (R10): the type of the shifted value inside one bit step (R22). -/
abbrev Bits25 := BitVec 25

/-- `Bits8` (R10): one message byte, unsigned. -/
abbrev Byte := BitVec 8

/-- A command word `w` (R60): the ten bits `{init, data_valid, data_in}`. -/
abbrev CommandWord := BitVec 10

end Sys2Proof
end

