-- ==== Sys2Proof/Config.lean ====
section
/-!
DEFINITION. The parameters of the block (spec/00_scope.md R7: each is fixed, none is a model argument) and the
one free value the spec leaves (spec/60_exceptions.md R141).
-/

namespace Sys2Proof.Config

/-- `POLY` (R7, R8): the generator polynomial with its x^24 term, 25 bits. -/
def poly : Bits25 := 0x1864CFB

/-- `POLY24` (R7): `POLY[23:0]`, the feedback pattern without the x^24 term. -/
def poly24 : Bits24 := 0x864CFB

/-- `INIT_VALUE` (R7): the initial CRC value. -/
def initValue : Bits24 := 0xB704CE

/-- `OUT_MASK` (R7): the output mask of the source's step 3. -/
def outMask : Bits24 := 0xFFFFFF

/-- `CRC_WIDTH` (R7): width of the CRC value and of `crc_out`. -/
def crcWidth : Nat := 24

/-- `DATA_WIDTH` (R7): bits absorbed per FEED command. -/
def dataWidth : Nat := 8

/-- `ACC_WIDTH` (R7, D11): width of the intermediate value inside one bit step. -/
def accWidth : Nat := 25

/-- `STATE_WIDTH` (R7, D11): width of the stored CRC register. -/
def stateWidth : Nat := 24

/-- `STEPS_PER_BYTE` (R7): bit steps per absorbed byte. -/
def stepsPerByte : Nat := 8

/-- R141, U3: the value `CRC` takes at an edge whose inputs the driver left undefined, "any value of Bits24".
It has no body, so nothing can be proved of a draw but what holds for every value. The argument numbers the
draws: `State.draws` is the number of the next one (log entry 3). -/
opaque freeCrc : Nat → Bits24

end Sys2Proof.Config
end

