-- ==== Sys2Proof/Machine/Flags.lean ====
section
/-!
DEFINITION. The block has no flags, condition codes or predicates (spec/10_state.md R26). The one condition the datapath
computes is the feedback tap, a wire of one bit step that is not kept after the edge (R22).
-/

namespace Sys2Proof.Machine

/-- The feedback tap `t[24]` (R22, R80): the bit the shift moved out of the 24-bit value. -/
def feedbackTap (t : Bits25) : Bool := t.getLsbD 24

end Sys2Proof.Machine
end

