-- ==== Sys2Proof/Syntax.lean ====
section
/-!
DEFINITION. The commands of the generator: one constructor per row of spec/opcode_table.json (spec/30_encoding.md R62).
-/

namespace Sys2Proof

/-- The whole command set (R62, R119). NOP and INIT carry no operand: their eight data bits are don't-care
(R64), so the 256 words of each are one command (R65). FEED and INITFEED carry the unsigned byte `D` (R63). -/
inductive Instr where
  /-- NOP, `w[9:8] = 00` (R111): hold. -/
  | nop
  /-- FEED b, `w[9:8] = 01` (R112): absorb one message byte. -/
  | feed (b : Byte)
  /-- INIT, `w[9:8] = 10` (R113): start a new message. -/
  | init
  /-- INITFEED b, `w[9:8] = 11` (R114): start a new message whose first byte is b. -/
  | initfeed (b : Byte)
  deriving DecidableEq, Repr

/-- The command's mnemonic as spec/opcode_table.json spells it. -/
def Instr.mnemonic : Instr → String
  | .nop => "NOP"
  | .feed _ => "FEED"
  | .init => "INIT"
  | .initfeed _ => "INITFEED"

end Sys2Proof
end

