-- ==== Sys2Proof/AsmSyntax.lean ====
section
/-!
DEFINITION. The abstract syntax of a command program's lines (spec/30_encoding.md R67, R68). Operands are the numbers
a line writes, of any size; Sys2Proof/WellFormed.lean says which lines are programs of the block.
-/

namespace Sys2Proof.Asm

/-- The part of a line that names a command word (R67). -/
inductive Command where
  | nop
  | feed (b : Nat)
  | init
  | initfeed (b : Nat)
  deriving DecidableEq, Repr

/-- One line of a program: a command, a reset line, or a pseudo-instruction (R67, R68). -/
inductive Line where
  /-- A line that gives the command of one cycle. -/
  | command (c : Command)
  /-- `RST [<command>]`: `rst = 1` for this cycle, with the command's word, or 0x000, on the ports. -/
  | rst (c : Option Command)
  /-- `WAIT <n>`: n lines of NOP. -/
  | wait (n : Nat)
  /-- `FEEDS <bytes>`: one FEED per byte, in order. -/
  | feeds (bs : List Nat)
  /-- `CRC24 <bytes>`: a whole message. -/
  | crc24 (bs : List Nat)
  deriving DecidableEq, Repr

end Sys2Proof.Asm
end

