-- ==== Sys2Proof/WellFormed.lean ====
section
/-!
DEFINITION. Which terms stand for something the block has. Every command is well formed: its one operand is a byte by
its type, and the spec reserves no encoding (spec/30_encoding.md R65). A program line is checked: a `<byte>` is a number
from 0 to 255 (R67).
-/

namespace Sys2Proof

/-- R65: every one of the command words is legal, so every command is well formed. -/
def Instr.wf : Instr → Bool
  | .nop => true
  | .feed _ => true
  | .init => true
  | .initfeed _ => true

namespace Asm

/-- R67: `<byte>` is a number from 0 to 255. -/
def byteOk (n : Nat) : Bool := n ≤ 255

/-- The operand of a command, where it has one, is a byte (R67). -/
def Command.wf : Command → Bool
  | .nop => true
  | .feed b => byteOk b
  | .init => true
  | .initfeed b => byteOk b

/-- Every number a line gives as a byte is one (R67, R68); `WAIT` takes any n ≥ 0. -/
def Line.wf : Line → Bool
  | .command c => c.wf
  | .rst none => true
  | .rst (some c) => c.wf
  | .wait _ => true
  | .feeds bs => bs.all byteOk
  | .crc24 bs => bs.all byteOk

end Asm
end Sys2Proof
end

