-- ==== Sys2Proof/Decode.lean ====
section
/-!
DEFINITION. The command encoding (spec/30_encoding.md R60 to R66): the fields of a command word, the decoder, total on
the 1024 words, and the encoder, written from the same table.
-/

namespace Sys2Proof

/-- The field `I = w[9]` (R60), the port `init`. -/
def fieldI (w : CommandWord) : Bool := w.getLsbD 9

/-- The field `V = w[8]` (R60), the port `data_valid`. -/
def fieldV (w : CommandWord) : Bool := w.getLsbD 8

/-- The field `D = w[7:0]` (R60, R63), the port `data_in`, an unsigned byte. -/
def fieldD (w : CommandWord) : Byte := w.extractLsb' 0 8

/-- The command word the three ports form: `{init, data_valid, data_in}` (R60). -/
def commandWord (init dataValid : Bool) (dataIn : Byte) : CommandWord :=
  BitVec.ofBool init ++ BitVec.ofBool dataValid ++ dataIn

/-- Decode, on the two bits `w[9:8]` (R62). No word is reserved or illegal (R65). -/
def decode (w : CommandWord) : Instr :=
  match fieldI w, fieldV w with
  | false, false => .nop
  | false, true => .feed (fieldD w)
  | true, false => .init
  | true, true => .initfeed (fieldD w)

/-- The word of a command: its row's match value with the data byte in `w[7:0]` (R62, R111 to R114). Every
don't-care bit is 0, as the assembler writes it (R67). -/
def encode : Instr → CommandWord
  | .nop => 0x000
  | .feed b => 0x100 ||| b.setWidth 10
  | .init => 0x200
  | .initfeed b => 0x300 ||| b.setWidth 10

/-- The rows of R62: mnemonic, match, mask. -/
def opcodeRows : List (String × CommandWord × CommandWord) :=
  [("NOP", 0x000, 0x300), ("FEED", 0x100, 0x300), ("INIT", 0x200, 0x300), ("INITFEED", 0x300, 0x300)]

/-- Why a number is no command. -/
inductive DecodeError where
  /-- The number has a bit above bit 9: "Every command is one 10-bit word" (R66). Raised by `decodeNat`; safe. -/
  | widerThanTenBits
  deriving DecidableEq, Repr

/-- Decode any number: the 1024 command words decode (R65), and a number wider than ten bits is refused by name. -/
def decodeNat (w : Nat) : Except DecodeError Instr :=
  if w < 1024 then .ok (decode (BitVec.ofNat 10 w)) else .error .widerThanTenBits

/-- The command the decoder reads from an opcode-table word of `nbits` bits; the bits above `nbits` are 0. -/
def decodeTableWord (nbits w : Nat) : Option Instr :=
  match decodeNat (w % 2 ^ nbits) with
  | .ok i => some i
  | .error _ => none

end Sys2Proof
end

