-- ==== Sys2Proof/Machine/Operands.lean ====
section
/-!
DEFINITION. The one operand form (spec/30_encoding.md R63): how the byte `D` enters the 24-bit datapath.
-/

namespace Sys2Proof.Machine

/-- `zext_24(D) << 16` (R63): D in bits 23 to 16 and zeros elsewhere, never sign-extended. -/
def alignByte (b : Byte) : Bits24 := b.setWidth 24 <<< 16

end Sys2Proof.Machine
end

