-- ==== Sys2Proof/Machine/PolyFeedbackCore.lean ====
section
/-!
DEFINITION. The combinational sub-block `crc24_poly_feedback_core` (spec/40_poly_feedback_core.md R80 to R84,
spec/10_state.md R30): the bit step, the byte step, and the whole-message function they define.
-/

namespace Sys2Proof.Machine

/-- The 25-bit shifted value `t = zext_25(a) << 1` of a bit step (R22, R80). -/
def shifted (a : Bits24) : Bits25 := a.setWidth 25 <<< 1

/-- `if t[24] = 1 then t ^ POLY else t` (R80), still 25 bits wide. -/
def feedback (t : Bits25) : Bits25 := if feedbackTap t then t ^^^ Config.poly else t

/-- `BitStep` (R80): one feedback stage. -/
def bitStep (a : Bits24) : Bits24 := (feedback (shifted a)).setWidth 24

/-- `BitStep^n` (R11): n chained feedback stages. -/
def bitSteps : Nat → Bits24 → Bits24
  | 0, a => a
  | n + 1, a => bitSteps n (bitStep a)

/-- `ByteStep` (R81): XOR the byte into bits 23 to 16, then eight bit steps. -/
def byteStep (s : Bits24) (b : Byte) : Bits24 := bitSteps Config.stepsPerByte (s ^^^ alignByte b)

/-- The core's ports (R30, R82): `state_out` as a function of `state_in` and `byte_in`, with no clock and no state. -/
def polyFeedbackCore (stateIn : Bits24) (byteIn : Byte) : Bits24 := byteStep stateIn byteIn

/-- The bytes of a message absorbed in sequence order from a given accumulator (R43, R83 without its first and last line). -/
def absorbAll (a : Bits24) (m : List Byte) : Bits24 := m.foldl byteStep a

/-- `crc24(m)` (R83): start at `INIT_VALUE`, absorb every byte, mask. -/
def crc24 (m : List Byte) : Bits24 := absorbAll Config.initValue m &&& Config.outMask

/-- `crc24_0` (R92): R83 with the initial value 0. -/
def crc24Zero (m : List Byte) : Bits24 := absorbAll 0 m &&& Config.outMask

end Sys2Proof.Machine
end

