-- ==== Sys2Proof/Machine/State.lean ====
section
/-!
DEFINITION. The state of one instance (spec/10_state.md R20, R23, R33) and the model's own record of what the outside
does to it: the driver's cycles still to come, the cycle index, and the number of free draws taken. All plain data.
-/

namespace Sys2Proof.Machine

/-- What the register `CRC` holds: `UNWRITTEN | Bits24`, the spec's own state type (R23, R33). -/
inductive CrcReg where
  /-- No value: before the first reset edge, INIT or INITFEED (R23, R151). -/
  | unwritten
  /-- A 24-bit value. -/
  | value (v : Bits24)
  deriving DecidableEq, Repr

/-- What an input port carries at the clock edge: a defined value, or not (R141). A port of several bits is
`undefined` when any of its bits is (log entry 6). -/
inductive Sampled (α : Type) where
  | defined (v : α)
  | undefined
  deriving DecidableEq, Repr

/-- What the driver does in one cycle: the values it presents on the input ports (R28), sampled at the edge that ends
the cycle (R13), and whether it samples the output port `crc_out` during the cycle (R115, R155; log entry 10). -/
structure DriverCycle where
  /-- Port `rst`, synchronous reset, active high (R28). -/
  rst : Sampled Bool
  /-- Port `init`, command bit 9 (R28, R60). -/
  init : Sampled Bool
  /-- Port `data_valid`, command bit 8 (R28, R60). -/
  dataValid : Sampled Bool
  /-- Port `data_in`, command bits 7:0 (R28, R60). -/
  dataIn : Sampled Byte
  /-- The driver samples `crc_out` during this cycle. -/
  observe : Bool
  deriving DecidableEq, Repr

/-- The state. `crc` is all the spec gives the machine (R33); the other three fields are the model's own. -/
structure State where
  /-- The register `CRC` (R20). -/
  crc : CrcReg
  /-- The cycle index t, which stands where an ISA has its program counter (R13, R25). No command reads it. -/
  cycle : Nat
  /-- What the driver will do, cycle by cycle, the current cycle first (log entries 1 and 2). -/
  driver : List DriverCycle
  /-- The number of the next free draw, an argument of `Config.freeCrc` (R141; log entry 3). -/
  draws : Nat
  deriving DecidableEq, Repr

/-- Why the machine stops. The block itself raises no exception (R130): the one fault is an act of the driver. -/
inductive Fault where
  /-- The driver sampled `crc_out` while `CRC` is `UNWRITTEN`: "a fault of the model, not a value" (R23, R115, R151).
  Raised by `State.crcOut`, and through it by `step` when the current cycle samples the output. Safe: the spec
  gives no value there. -/
  | crcOutUnwritten
  deriving DecidableEq, Repr

/-- Why the model gives an instruction no meaning. -/
inductive Refusal where
  /-- The instruction has no meaning yet. Raised by an arm of `exec` only; no arm raises it now. Safe. -/
  | notModelled (mnemonic : String)
  deriving DecidableEq, Repr

/-- The machine after a reset edge (R150, R152): `CRC` is `INIT_VALUE`. Nothing is driven yet, and the model's
own counters stand at 0 (log entries 3 and 8). -/
def State.reset : State :=
  { crc := .value Config.initValue, cycle := 0, driver := [], draws := 0 }

end Sys2Proof.Machine
end

