-- ==== Sys2Proof/Machine/Ops.lean ====
section
/-!
DEFINITION. The named operations on the state: writing and reading `CRC`, sampling the ports, the passing of a cycle, a
reset edge and an edge with undefined inputs. The block raises no exception and has no trap entry or return
(spec/60_exceptions.md R130, R134), so there is no such operation.
-/

namespace Sys2Proof.Machine

/-- The state after power-up, before any reset (R151, R152): `CRC` is `UNWRITTEN`. -/
def State.powerUp : State := { State.reset with crc := .unwritten }

/-- `CRC <- v` (R12). -/
def State.writeCrc (s : State) (v : Bits24) : State := { s with crc := .value v }

/-- `CRC <- ByteStep(CRC, b)` through the core, which leaves an `UNWRITTEN` register `UNWRITTEN` (R23, R110, R112). -/
def State.absorb (s : State) (b : Byte) : State :=
  match s.crc with
  | .unwritten => s
  | .value v => s.writeCrc (polyFeedbackCore v b)

/-- The output port `crc_out` (R28, R115): it equals `CRC` at all times, and observing it while `CRC` is `UNWRITTEN`
is a fault (R23, R151). Reading it changes nothing (R48). -/
def State.crcOut (s : State) : Except Fault Bits24 :=
  match s.crc with
  | .unwritten => .error .crcOutUnwritten
  | .value v => .ok v

/-- `crc_out` placed on a path of n ≥ 24 bits (R49, U6): the bits above bit 23 are zero. -/
def State.crcOutOn (s : State) (n : Nat) : Except Fault (BitVec n) :=
  match s.crcOut with
  | .ok v => .ok (v.setWidth n)
  | .error f => .error f

/-- A reset edge (R150): `CRC <- INIT_VALUE`, whatever it held. -/
def State.resetEdge (s : State) : State := s.writeCrc Config.initValue

/-- An edge at which the driver left a needed input undefined (R141): `CRC` takes a free value of Bits24. -/
def State.undefinedEdge (s : State) : State :=
  { s with crc := .value (Config.freeCrc s.draws), draws := s.draws + 1 }

/-- The driver presents the command word `w` with `rst = 0` (R60, R61). -/
def DriverCycle.ofWord (w : CommandWord) : DriverCycle :=
  { rst := .defined false, init := .defined (fieldI w), dataValid := .defined (fieldV w)
    dataIn := .defined (fieldD w), observe := false }

/-- The driver presents the command word `w` with `rst = 1` (R67, R150). -/
def DriverCycle.resetWith (w : CommandWord) : DriverCycle :=
  { DriverCycle.ofWord w with rst := .defined true }

/-- The same ports with the output sampled in this cycle too (R115). -/
def DriverCycle.observing (c : DriverCycle) : DriverCycle := { c with observe := true }

/-- A driver that presents nothing defined (R141) and does not read the output. -/
def DriverCycle.undriven : DriverCycle :=
  { rst := .undefined, init := .undefined, dataValid := .undefined, dataIn := .undefined, observe := false }

/-- What the ports amount to at the clock edge. -/
inductive EdgeInput where
  /-- `rst = 1` (R150). -/
  | reset
  /-- `rst = 0` and a command word (R61). -/
  | command (w : CommandWord)
  /-- An input the driver must define is undefined (R141). -/
  | undefined
  deriving DecidableEq, Repr

/-- Sample the ports (R60, R61, R141). `rst`, `init` and `data_valid` must be defined at every edge, and `data_in`
where `data_valid = 1`; an undefined `data_in` where `data_valid = 0` is don't-care and is sampled as 0 (R64; log
entry 7). With all of them defined, `rst` comes before the command (R133). -/
def DriverCycle.sample (c : DriverCycle) : EdgeInput :=
  match c.rst, c.init, c.dataValid, c.dataIn with
  | .defined r, .defined i, .defined v, .defined d => if r then .reset else .command (commandWord i v d)
  | .defined r, .defined i, .defined false, .undefined => if r then .reset else .command (commandWord i false 0)
  | _, _, _, _ => .undefined

/-- The current cycle. A driver with nothing left to do presents nothing defined (log entry 2). -/
def State.current (s : State) : DriverCycle := s.driver.headD .undriven

/-- One edge has passed: the index advances by exactly one (R25), and the driver goes on to its next cycle. -/
def State.nextCycle (s : State) : State := { s with cycle := s.cycle + 1, driver := s.driver.tail }

/-- Put the command word of an opcode-table number on the ports for the current cycle. Ports carry bits 9 to 0 only. -/
def State.presentWord (s : State) (w : Nat) : State :=
  { s with driver := .ofWord (BitVec.ofNat 10 w) :: s.driver.tail }

end Sys2Proof.Machine
end

