-- ==== Sys2Proof/Machine/Commands.lean ====
section
/-!
DEFINITION. The meanings of the four commands (spec/41_gen_commands.md R110 to R114). Each is total, on every state, and
none writes a flag or raises an exception.
-/

namespace Sys2Proof.Machine

/-- NOP (R111): `CRC <- CRC`. -/
def execNop (s : State) : Host.Outcome State Fault Refusal := .next s

/-- FEED b (R112): `CRC <- ByteStep(CRC, b)`; an `UNWRITTEN` register stays `UNWRITTEN`. -/
def execFeed (b : Byte) (s : State) : Host.Outcome State Fault Refusal := .next (s.absorb b)

/-- INIT (R113): `CRC <- INIT_VALUE`. -/
def execInit (s : State) : Host.Outcome State Fault Refusal := .next (s.writeCrc Config.initValue)

/-- INITFEED b (R114): `CRC <- ByteStep(INIT_VALUE, b)`; the old CRC is not read. -/
def execInitfeed (b : Byte) (s : State) : Host.Outcome State Fault Refusal :=
  .next (s.writeCrc (polyFeedbackCore Config.initValue b))

end Sys2Proof.Machine
end

