-- ==== Sys2Proof/Machine/Edge.lean ====
section
/-!
DEFINITION. One rising edge of `clk` (spec/41_gen_commands.md R110), and one whole cycle: the observation of `crc_out`
the driver makes during it, if any, and then the edge that ends it (spec/00_scope.md R13).
-/

namespace Sys2Proof.Machine

/-- The edge with the given inputs (R110), with the precedence `rst` over `init` over `data_valid` (R133). -/
def clockEdge (e : EdgeInput) (s : State) : Host.Outcome State Fault Refusal :=
  match e with
  | .reset => .next s.resetEdge
  | .command w => exec (decode w) s
  | .undefined => .next s.undefinedEdge

/-- One cycle. An observation shows the value before the edge (R155) and has no effect but its fault (R48, R151). -/
def runCycle (s : State) : Host.Outcome State Fault Refusal :=
  match s.current.observe, s.crcOut with
  | true, .error f => .fault f
  | _, _ => clockEdge s.current.sample s.nextCycle

end Sys2Proof.Machine
end

