-- ==== Sys2Proof/Machine/Step.lean ====
section
/-! DEFINITION. The step, one clock cycle (spec/10_state.md R25), and the host's way to place one command. -/

namespace Sys2Proof.Machine

/-- One step of the instance: one cycle and the rising edge that ends it (R25, R110). -/
def step (s : State) : Host.Outcome State Fault Refusal := runCycle s

/-- The state with an opcode-table word on the ports of the current cycle, so that the next step runs it. -/
def State.withFetchWord (s : State) (nbits w : Nat) : State := s.presentWord (w % 2 ^ nbits)

end Sys2Proof.Machine
end

