-- ==== Sys2Proof/Certificates/Slice0/PolynomialReading.lean ====
section
/-!
DEFINITION. The polynomial reading of bit vectors that spec/00_scope.md R8 and spec/40_poly_feedback_core.md R91 use, in
Mathlib's polynomials over GF(2). Statements are made in its terms; the machine does not use it.
-/

namespace Sys2Proof.Claims
open Polynomial

/-- A bit vector read with bit k as the coefficient of x^k (R8, R91). -/
noncomputable def toPoly {n : Nat} (a : BitVec n) : (ZMod 2)[X] :=
  ∑ k ∈ Finset.range n, if a.getLsbD k then X ^ k else 0

/-- The generator g(x): `POLY` so read (R8). -/
noncomputable def generator : (ZMod 2)[X] := toPoly Config.poly

/-- M(x) (R91): the message as a polynomial, with bit 7 of its first byte as the highest coefficient. -/
noncomputable def messagePoly : List Byte → (ZMod 2)[X]
  | [] => 0
  | b :: bs => toPoly b * X ^ (8 * bs.length) + messagePoly bs

end Sys2Proof.Claims
end

