-- ==== Sys2Proof/Machine/Assembler.lean ====
section
/-!
DEFINITION. The assembler of spec/30_encoding.md R67 and R68 (D16, notation only): program text to lines, lines to the
cycles a driver presents. What R67 leaves open of the lexical form is in log entry 13.
-/

namespace Sys2Proof.Asm
open Sys2Proof.Machine

/-! ## From lines to cycles -/

/-- The command a well-formed operand names (R67). -/
def Command.instr : Command → Instr
  | .nop => .nop
  | .feed b => .feed (BitVec.ofNat 8 b)
  | .init => .init
  | .initfeed b => .initfeed (BitVec.ofNat 8 b)

/-- A line without its pseudo-instruction (R68): for each cycle, whether `rst` is 1, and the command. A bare `RST`
has the word 0x000 on the ports (R67). -/
def Line.expand : Line → List (Bool × Command)
  | .command c => [(false, c)]
  | .rst none => [(true, .nop)]
  | .rst (some c) => [(true, c)]
  | .wait n => List.replicate n (false, .nop)
  | .feeds bs => bs.map fun b => (false, .feed b)
  | .crc24 [] => [(false, .init)]
  | .crc24 (b :: bs) => (false, .initfeed b) :: bs.map fun b => (false, .feed b)

/-- The ports in the cycle of one expanded line (R67). -/
def cycleOf : Bool × Command → DriverCycle
  | (false, c) => .ofWord (encode c.instr)
  | (true, c) => .resetWith (encode c.instr)

/-- The cycles of a program, one expanded line per cycle; a program with an ill-formed line has none. -/
def assemble (ls : List Line) : Option (List DriverCycle) :=
  if ls.all Line.wf then some ((ls.flatMap Line.expand).map cycleOf) else none

/-! ## From text to lines -/

/-- A word of a line. A name is kept in capitals: "Mnemonics are case-insensitive" (R67). -/
inductive Token where
  | name (cs : List Char)
  | num (n : Nat)
  | chr (n : Nat)
  | str (ns : List Nat)
  | comma
  deriving DecidableEq, Repr

/-- Where in a line the lexer stands. -/
inductive LexMode where
  | idle
  | word (reversed : List Char)
  | afterQuote
  | afterQuoted (n : Nat)
  | string (reversed : List Nat)
  | comment
  deriving DecidableEq, Repr

/-- An ASCII character's code: what a character or string literal stands for (R67, R68). -/
def asciiCode (c : Char) : Option Nat := if c.toNat < 128 then some c.toNat else none

/-- The value of a digit in base 10 or 16. -/
def digitValue (base : Nat) (c : Char) : Option Nat :=
  let v := if '0' ≤ c ∧ c ≤ '9' then c.toNat - 48
    else if 'a' ≤ c ∧ c ≤ 'f' then c.toNat - 87
    else if 'A' ≤ c ∧ c ≤ 'F' then c.toNat - 55 else 16
  if v < base then some v else none

/-- The number a list of digits writes, most significant first, continuing from `acc`. -/
def digitsValue (base : Nat) : Nat → List Char → Option Nat
  | acc, [] => some acc
  | acc, c :: cs =>
    match digitValue base c with
    | some v => digitsValue base (acc * base + v) cs
    | none => none

/-- A run of letters and digits: a number, decimal or `0x` hex, or a name (R67). -/
def wordToken : List Char → Option Token
  | [] => none
  | '0' :: 'x' :: c :: cs => (digitsValue 16 0 (c :: cs)).map .num
  | c :: cs =>
    if c.isDigit then (digitsValue 10 0 (c :: cs)).map .num else some (.name ((c :: cs).map Char.toUpper))

/-- Read a character that begins something. -/
def lexStart (c : Char) : Option (LexMode × List Token) :=
  if c = ' ' ∨ c = '\t' ∨ c = '\r' then some (.idle, [])
  else if c = ';' then some (.comment, [])
  else if c = ',' then some (.idle, [.comma])
  else if c = '\'' then some (.afterQuote, [])
  else if c = '"' then some (.string [], [])
  else if c.isAlphanum then some (.word [c], [])
  else none

/-- Read one character: the new mode and the tokens it completes. -/
def lexStep : LexMode → Char → Option (LexMode × List Token)
  | .idle, c => lexStart c
  | .word cs, c =>
    if c.isAlphanum then some (.word (c :: cs), [])
    else match wordToken cs.reverse, lexStart c with
      | some t, some (m, ts) => some (m, t :: ts)
      | _, _ => none
  | .afterQuote, c => (asciiCode c).map fun n => (.afterQuoted n, [])
  | .afterQuoted n, c => if c = '\'' then some (.idle, [.chr n]) else none
  | .string ns, c =>
    if c = '"' then some (.idle, [.str ns.reverse]) else (asciiCode c).map fun n => (.string (n :: ns), [])
  | .comment, _ => some (.comment, [])

/-- The tokens of the rest of a line. -/
def lexFrom : LexMode → List Char → Option (List Token)
  | .word cs, [] => (wordToken cs.reverse).map fun t => [t]
  | .idle, [] => some []
  | .comment, [] => some []
  | .afterQuote, [] => none
  | .afterQuoted _, [] => none
  | .string _, [] => none
  | m, c :: cs =>
    match lexStep m c with
    | some (m', ts) => (lexFrom m' cs).map (ts ++ ·)
    | none => none

/-- `<byte>`: a number or a character literal (R67). -/
def byteToken : Token → Option Nat
  | .num n => some n
  | .chr n => some n
  | _ => none

/-- A comma-separated list of at least one byte (R68). -/
def parseByteList : List Token → Option (List Nat)
  | [t] => (byteToken t).map fun b => [b]
  | t :: .comma :: ts =>
    match byteToken t, parseByteList ts with
    | some b, some bs => some (b :: bs)
    | _, _ => none
  | _ => none

/-- `<bytes>`: a string literal, a list of bytes, or nothing for the empty list (R68). -/
def parseBytes : List Token → Option (List Nat)
  | [] => some []
  | [.str ns] => some ns
  | ts => parseByteList ts

/-- A command (R67). -/
def parseCommand : List Token → Option Command
  | [.name ['N', 'O', 'P']] => some .nop
  | [.name ['I', 'N', 'I', 'T']] => some .init
  | [.name ['F', 'E', 'E', 'D'], t] => (byteToken t).map .feed
  | [.name ['I', 'N', 'I', 'T', 'F', 'E', 'E', 'D'], t] => (byteToken t).map .initfeed
  | _ => none

/-- A line: a reset line, a pseudo-instruction or a command (R67, R68). -/
def parseTokens : List Token → Option Line
  | [.name ['R', 'S', 'T']] => some (.rst none)
  | .name ['R', 'S', 'T'] :: ts => (parseCommand ts).map fun c => .rst (some c)
  | [.name ['W', 'A', 'I', 'T'], .num n] => some (.wait n)
  | .name ['F', 'E', 'E', 'D', 'S'] :: ts => (parseBytes ts).map .feeds
  | .name ['C', 'R', 'C', '2', '4'] :: ts => (parseBytes ts).map .crc24
  | ts => (parseCommand ts).map .command

/-- The characters up to the first line break, and the lines after it. -/
def splitLines : List Char → List Char × List (List Char)
  | [] => ([], [])
  | c :: cs =>
    let r := splitLines cs
    if c = '\n' then ([], r.1 :: r.2) else (c :: r.1, r.2)

/-- The lines of a program; a line with nothing but white space and a comment gives none. -/
def parseLines : List (List Char) → Option (List Line)
  | [] => some []
  | l :: ls =>
    match lexFrom .idle l, parseLines ls with
    | some [], some rest => some rest
    | some ts, some rest => (parseTokens ts).map fun p => p :: rest
    | _, _ => none

/-- Parse a program's text, given as its characters. -/
def parseChars (cs : List Char) : Option (List Line) :=
  let r := splitLines cs
  parseLines (r.1 :: r.2)

/-- Assemble a program's text, given as its characters. -/
def assembleChars (cs : List Char) : Option (List DriverCycle) :=
  match parseChars cs with
  | some ls => assemble ls
  | none => none

/-- Assemble a program's text. -/
def assembleText (text : String) : Option (List DriverCycle) := assembleChars text.toList

end Sys2Proof.Asm

namespace Sys2Proof.Machine

/-- Hand a driver a program: the cycles it will present from the current one on (R61, R67). -/
def State.withProgram (s : State) (p : List DriverCycle) : State := { s with driver := p }

end Sys2Proof.Machine
end

