-- ==== Sys2Proof/Machine/Instances.lean ====
section
/-!
DEFINITION. Several instances (spec/60_exceptions.md R138, spec/20_memory.md R52): each has its own state, its own ports
and its own driver, so a system of them is a list of states, and one cycle of one instance is a step of that entry alone.
-/

namespace Sys2Proof.Machine

/-- One cycle of instance k of a system. `none` where the system has no instance k. The spec gives the step of one
instance only (R110) and is silent on what a fault of the model in one instance (a read of its `UNWRITTEN` `crc_out`,
R151) means for the others. DESIGN CHOICE (log entry 14), safe: that fault ends the step of the whole system, which then
has no next state. -/
def stepInstance (k : Nat) (sys : List State) : Option (Host.Outcome (List State) Fault Refusal) :=
  match sys[k]? with
  | none => none
  | some s =>
    match step s with
    | .next t => some (.next (sys.set k t))
    | .fault f => some (.fault f)
    | .refused r => some (.refused r)

end Sys2Proof.Machine
end

