-- ==== Sys2Proof/Safety.lean ====
section
/-!
DEFINITION. The terms claims are stated in: when an observation is allowed, when a driver respects its duties
(spec/60_exceptions.md R141, spec/70_reset_and_hazards.md R153), and which bytes a stretch of cycles carries
(spec/41_gen_commands.md R116).
-/

namespace Sys2Proof.Machine

/-- `CRC` holds a value (R153). -/
def State.written (s : State) : Bool := s.crc ≠ .unwritten

/-- The current cycle does not sample `crc_out` while `CRC` is `UNWRITTEN`: no fault of the model (R115, R151). -/
def State.safe (s : State) : Bool := s.current.observe → s.written

/-- The driver presents every input it must define (R141). -/
def DriverCycle.driven (c : DriverCycle) : Bool := c.sample ≠ .undefined

/-- The bytes a cycle adds to the message under way: none for NOP, one for FEED. `none` for every other cycle, a
start of message or an undefined input. -/
def DriverCycle.continues (c : DriverCycle) : Option (List Byte) :=
  match c.sample with
  | .command w =>
    match decode w with
    | .nop => some []
    | .feed b => some [b]
    | .init => none
    | .initfeed _ => none
  | .reset => none
  | .undefined => none

/-- The first bytes of the message a cycle starts: none for a reset edge or INIT, one for INITFEED (R154). `none` for a
cycle that starts no message. -/
def DriverCycle.starts (c : DriverCycle) : Option (List Byte) :=
  match c.sample with
  | .reset => some []
  | .command w =>
    match decode w with
    | .init => some []
    | .initfeed b => some [b]
    | .nop => none
    | .feed _ => none
  | .undefined => none

/-- The bytes a stretch of NOP and FEED cycles carries, in cycle order (R43); `none` if another cycle is among them. -/
def carried : List DriverCycle → Option (List Byte)
  | [] => some []
  | c :: cs =>
    match c.continues, carried cs with
    | some b, some m => some (b ++ m)
    | _, _ => none

/-- The message of which a register is the CRC so far, and what one cycle with defined inputs makes of it: `none` is
"no message yet", the abstract side of an `UNWRITTEN` register. -/
def messageAfter (m : Option (List Byte)) (c : DriverCycle) : Option (List Byte) :=
  match c.starts with
  | some start => some start
  | none => m.map (· ++ c.continues.getD [])

/-- The register that holds the CRC of the message so far. -/
def crcOfMessage : Option (List Byte) → CrcReg
  | none => .unwritten
  | some m => .value (crc24 m)

/-- The machine of the host's interface, run for n cycles. -/
abbrev runFor (n : Nat) (s : State) : Host.Outcome State Fault Refusal := Sys2Proof.core.run n s

end Sys2Proof.Machine
end

