-- ==== Sys2Proof/Certificates/Slice0/Readings.lean ====
section
/-!
DEFINITION. The spec's own pseudocode, written out once more beside the machine, for the statements that compare the two:
the effect of a command on `CRC` (spec/41_gen_commands.md R111 to R114), the step of R110, and the taps of a byte step
(spec/20_memory.md R44).
-/

namespace Sys2Proof.Claims
open Sys2Proof.Machine

/-- What a command makes of `CRC`: the pseudocode of R111 to R114. -/
def effect : Instr → CrcReg → CrcReg
  | .nop, c => c
  | .feed _, .unwritten => .unwritten
  | .feed b, .value v => .value (byteStep v b)
  | .init, _ => .value 0xB704CE
  | .initfeed b, _ => .value (byteStep 0xB704CE b)

/-- `Step(S, rst, w)` of R110, on the two bits `w[9:8]`. -/
def specStep (c : CrcReg) (rst : Bool) (w : CommandWord) : CrcReg :=
  if rst then .value 0xB704CE
  else if w.extractLsb' 8 2 = 0b00#2 then c
  else if w.extractLsb' 8 2 = 0b01#2 then
    match c with
    | .unwritten => .unwritten
    | .value v => .value (byteStep v (w.extractLsb' 0 8))
  else if w.extractLsb' 8 2 = 0b10#2 then .value 0xB704CE
  else .value (byteStep 0xB704CE (w.extractLsb' 0 8))

/-- The feedback tap in stage j + 1 of `ByteStep(s, b)` (R22, R80). -/
def tapOfStage (s : Bits24) (b : Byte) (j : Nat) : Bool :=
  feedbackTap (shifted (bitSteps j (s ^^^ alignByte b)))

/-- The driver presents a list of command words, one per cycle, with `rst = 0`. -/
def presentWords (ws : List CommandWord) : List DriverCycle := ws.map DriverCycle.ofWord

/-- The driver presents the words of a list of commands, one per cycle (R156). -/
def presentCommands (is : List Instr) : List DriverCycle := presentWords (is.map encode)

/-- `s` after n cycles that leave the driver at `rest`, with `CRC` holding `c`: everything else as it was. -/
def after (s : State) (n : Nat) (rest : List DriverCycle) (c : CrcReg) : State :=
  { crc := c, cycle := s.cycle + n, driver := rest, draws := s.draws }

end Sys2Proof.Claims
end

