-- ==== Sys2Proof/Machine/EquivalentForms.lean ====
section
/-!
DEFINITION. The other ways spec/40_poly_feedback_core.md computes the same checksum: a software accumulator of any
width (R87 to R89), the table-driven form (R94) and the bit-serial form (R95). The machine uses none of them; R82 lets a
circuit use the last two.
-/

namespace Sys2Proof.Machine

/-- One iteration of the source's step 2b in a W-bit accumulator (R88): `crc <<= 1`, then
`if (crc & 0x1000000) crc ^= 0x1864CFB`. With W = 24 the test reads nothing (R87). -/
def accBitStep {W : Nat} (a : BitVec W) : BitVec W :=
  if (a <<< 1) &&& BitVec.ofNat W 0x1000000 = 0 then a <<< 1 else (a <<< 1) ^^^ BitVec.ofNat W 0x1864CFB

/-- n iterations of step 2b in a W-bit accumulator. -/
def accBitSteps {W : Nat} : Nat → BitVec W → BitVec W
  | 0, a => a
  | n + 1, a => accBitSteps n (accBitStep a)

/-- `b << 16` with the byte zero-extended to W bits: the source's requirement (R63, R89). -/
def laneUnsigned (W : Nat) (b : Byte) : BitVec W := b.setWidth W <<< 16

/-- `b << 16` with the byte sign-extended to W bits: what R89 and V-SIGN examine. -/
def laneSigned (W : Nat) (b : Byte) : BitVec W := b.signExtend W <<< 16

/-- `b << 16` computed inside an 8-bit type: the case R89 says does corrupt the result. -/
def laneEightBit (W : Nat) (b : Byte) : BitVec W := (b <<< 16).setWidth W

/-- The source's step 2 for one byte in a W-bit accumulator, for a given way to form `b << 16`. -/
def accByteStep {W : Nat} (lane : Byte → BitVec W) (a : BitVec W) (b : Byte) : BitVec W :=
  accBitSteps Config.stepsPerByte (a ^^^ lane b)

/-- The W-bit accumulator after the source's steps 1 and 2, not yet masked. -/
def accumulated {W : Nat} (lane : Byte → BitVec W) (m : List Byte) : BitVec W :=
  m.foldl (accByteStep lane) (BitVec.ofNat W 0xB704CE)

/-- The source's result: step 3 masks the accumulator to its low 24 bits. -/
def maskedResult {W : Nat} (lane : Byte → BitVec W) (m : List Byte) : BitVec W :=
  accumulated lane m &&& BitVec.ofNat W 0xFFFFFF

/-- `T[i] = ByteStep(0x000000, i)` (R94). -/
def tableEntry (i : Byte) : Bits24 := byteStep 0 i

/-- The table-driven form of a byte step (R94). -/
def tableByteStep (s : Bits24) (b : Byte) : Bits24 :=
  ((s <<< 8) &&& 0xFFFF00) ^^^ tableEntry (s.extractLsb' 16 8 ^^^ b)

/-- One stage of the bit-serial form, a Galois shift register (R95), for the data bit `bit`. -/
def serialStage (s : Bits24) (bit : Bool) : Bits24 :=
  ((s <<< 1) &&& 0xFFFFFF) ^^^ (if s.getLsbD 23 ^^ bit then Config.poly24 else 0)

/-- The bits of a byte from bit 7 down to bit 0: the order in which they reach the tap (R44, R95). -/
def bitsMsbFirst (b : Byte) : List Bool :=
  [b.getLsbD 7, b.getLsbD 6, b.getLsbD 5, b.getLsbD 4, b.getLsbD 3, b.getLsbD 2, b.getLsbD 1, b.getLsbD 0]

/-- The bit-serial form of a byte step (R95): k = 7 down to 0. -/
def serialByteStep (s : Bits24) (b : Byte) : Bits24 := (bitsMsbFirst b).foldl serialStage s

end Sys2Proof.Machine
end

