-- ==== Sys2Proof/Certificates/Slice0/Obligations.lean ====
section
/-!
DEFINITION. The statements for the provers, each from the spec's numbered rules. `after s n rest c` is `s` n cycles later:
`CRC` is `c`, the driver stands at `rest`, and nothing else changed; an equation `step s = .next (after s 1 rest c)` is
a result, a completion and a frame at once.
-/

open Sys2Proof Sys2Proof.Machine Sys2Proof.Claims

/-! ## Encoding and the step -/

/-- R60: the three ports form the word `{init, data_valid, data_in}`, and every ten-bit word is formed so. -/
def Obligations.PortsFormTheCommandWord : Prop :=
  (∀ (i v : Bool) (d : Byte),
    (commandWord i v d).toNat = (if i then 512 else 0) + (if v then 256 else 0) + d.toNat ∧
    fieldI (commandWord i v d) = i ∧ fieldV (commandWord i v d) = v ∧ fieldD (commandWord i v d) = d) ∧
  ∀ w : CommandWord, commandWord (fieldI w) (fieldV w) (fieldD w) = w

/-- R62, R65: a word matches exactly one row of the table and decodes to that row's command; each row has 256 of the
1024 words; and every word, on every state, runs to a next state. -/
def Obligations.EveryWordIsOneCommand : Prop :=
  (∀ w : CommandWord, ∃! r, r ∈ opcodeRows ∧ w &&& r.2.2 = r.2.1) ∧
  (∀ (w : CommandWord) (r : String × CommandWord × CommandWord), r ∈ opcodeRows →
    (w &&& r.2.2 = r.2.1 ↔ (decode w).mnemonic = r.1)) ∧
  (∀ r ∈ opcodeRows,
    ((List.range 1024).filter fun n => (decode (BitVec.ofNat 10 n)).mnemonic = r.1).length = 256) ∧
  ∀ (w : CommandWord) (s : State), ∃ t, clockEdge (.command w) s = .next t

/-- The words of V-CMD and P5 (spec/95_test_vectors.md), written out from the encoding of R60, R62. -/
def Obligations.WrittenOutWordsDecode : Prop :=
  decode 0b0000000000 = .nop ∧ decode 0b0011111111 = .nop ∧ decode 0b0100110001 = .feed 0x31 ∧
  decode 0b1000000000 = .init ∧ decode 0b1010100101 = .init ∧ decode 0b1100110010 = .initfeed 0x32

/-- Decode and encode agree: the decoder gives back every well-formed command, from its word and from its number; every
word is its command's word but for the don't-care bits of NOP and INIT, which the encoder writes as 0 (R64, R67); and
a number wider than ten bits is no command (the model's choice, log entry 12). -/
def Obligations.DecodeInvertsEncode : Prop :=
  (∀ i : Instr, i.wf = true →
    decode (encode i) = i ∧ ∀ nbits, 10 ≤ nbits → decodeTableWord nbits (encode i).toNat = some i) ∧
  (∀ w : CommandWord, encode (decode w) = if fieldV w then w else w &&& 0x300) ∧
  (∀ n : Nat, 1024 ≤ n → decodeNat n = .error .widerThanTenBits)

/-- R64: with `data_valid = 0` the data port has no effect on the step; with `data_valid = 1` each of its bits does:
different bytes give different next values of `CRC`. That the first clause holds of an undefined `data_in` too is not
R64's word but the model's reading of R141 (log entry 7, DEDUCED). -/
def Obligations.DataBitsMatterOnlyWhenValid : Prop :=
  (∀ (s : State) (r i obs : Bool) (d d' : Sampled Byte) (rest : List DriverCycle),
    step { s with driver := ⟨.defined r, .defined i, .defined false, d, obs⟩ :: rest } =
      step { s with driver := ⟨.defined r, .defined i, .defined false, d', obs⟩ :: rest }) ∧
  (∀ (s : State) (b b' : Byte) (v : Bits24), s.crc = .value v → b ≠ b' →
    ∃ t t', exec (.feed b) s = .next t ∧ exec (.feed b') s = .next t' ∧ t.crc ≠ t'.crc) ∧
  (∀ (s : State) (b b' : Byte), b ≠ b' →
    ∃ t t', exec (.initfeed b) s = .next t ∧ exec (.initfeed b') s = .next t' ∧ t.crc ≠ t'.crc)

/-- R61: where `rst` is 0 the step is `exec` of the decoded command, one cycle later; where it is 1 the command word is
ignored. The premise leaves out only the observation that faults (R151). -/
def Obligations.StepRunsTheDecodedCommand : Prop :=
  (∀ (s : State) (i v obs : Bool) (d : Byte) (rest : List DriverCycle),
    s.driver = ⟨.defined false, .defined i, .defined v, .defined d, obs⟩ :: rest →
    (obs = true → s.crc ≠ .unwritten) →
    step s = exec (decode (commandWord i v d)) { s with cycle := s.cycle + 1, driver := rest }) ∧
  (∀ (s : State) (i v obs : Bool) (d : Byte) (rest : List DriverCycle),
    s.driver = ⟨.defined true, .defined i, .defined v, .defined d, obs⟩ :: rest →
    (obs = true → s.crc ≠ .unwritten) →
    step s = .next (after s 1 rest (.value 0xB704CE)))

/-- R110: with defined inputs, one step is the spec's `Step(S, rst, w)` on `CRC`, and changes nothing else of the machine. -/
def Obligations.StepIsTheSpecsStep : Prop :=
  ∀ (s : State) (r obs : Bool) (w : CommandWord) (rest : List DriverCycle),
    s.driver = ⟨.defined r, .defined (fieldI w), .defined (fieldV w), .defined (fieldD w), obs⟩ :: rest →
    (obs = true → s.crc ≠ .unwritten) →
    step s = .next (after s 1 rest (specStep s.crc r w))

/-- R133: at one edge `rst` comes first, then `init`, then `data_valid`; `init` and `data_valid` together are INITFEED;
no combination of defined inputs is an error. -/
def Obligations.InputsHaveFixedPrecedence : Prop :=
  ∀ (s : State) (r i v : Bool) (d : Byte) (rest : List DriverCycle),
    step { s with driver := ⟨.defined r, .defined i, .defined v, .defined d, false⟩ :: rest } =
      .next (after s 1 rest
        (if r then .value 0xB704CE
         else if i then .value (if v then byteStep 0xB704CE d else 0xB704CE)
         else if v then effect (.feed d) s.crc
         else s.crc))

/-! ## The commands -/

/-- R111, NOP: its words, its effect on every state, and any number of them in a row, with any data bits. -/
def Obligations.NopHoldsTheCrc : Prop :=
  (∀ w : CommandWord, decode w = .nop ↔ w &&& 0x300 = 0x000) ∧
  (∀ s : State, exec .nop s = .next s) ∧
  (∀ (s : State) (ws : List CommandWord) (rest : List DriverCycle), (∀ w ∈ ws, w &&& 0x300 = 0x000) →
    s.driver = presentWords ws ++ rest → runFor ws.length s = .next (after s ws.length rest s.crc))

/-- R112, FEED b: its words, its effect on a written and on an `UNWRITTEN` register, its corner cases, and any number
of FEEDs in consecutive cycles. -/
def Obligations.FeedAbsorbsOneByte : Prop :=
  (∀ w : CommandWord, (∃ b, decode w = .feed b) ↔ w &&& 0x300 = 0x100) ∧
  (∀ b : Byte, decode (0x100 ||| b.setWidth 10) = .feed b) ∧
  (∀ (s : State) (v : Bits24) (b : Byte), s.crc = .value v →
    exec (.feed b) s = .next { s with crc := .value (byteStep v b) }) ∧
  (∀ (s : State) (b : Byte), s.crc = .unwritten → exec (.feed b) s = .next s) ∧
  (∀ v : Bits24, byteStep v 0x00 = v ↔ v = 0x000000 ∨ v = 0x823BA9) ∧
  byteStep 0x000000 0x00 = 0x000000 ∧ byteStep 0xFFFFFF 0xFF = 0xFFFF00 ∧ byteStep 0xB704CE 0x31 = 0x2EBA48 ∧
  (∀ (s : State) (v : Bits24) (m : List Byte) (rest : List DriverCycle), s.crc = .value v →
    s.driver = presentCommands (m.map .feed) ++ rest →
    runFor m.length s = .next (after s m.length rest (.value (m.foldl byteStep v))))

/-- R113, INIT: its words, its effect on every state, `UNWRITTEN` or in the middle of a message, and the CRC of the empty
message it leaves on `crc_out`. -/
def Obligations.InitStartsAMessage : Prop :=
  (∀ w : CommandWord, decode w = .init ↔ w &&& 0x300 = 0x200) ∧
  (∀ s : State, exec .init s = .next { s with crc := .value 0xB704CE }) ∧
  (∀ (s t : State), exec .init s = .next t → t.crcOut = .ok (crc24 []) ∧ t.crcOut = .ok 0xB704CE)

/-- R114, INITFEED b: its words, its effect on every state whatever the old CRC, that it is INIT and then FEED in one
cycle instead of two, and the rule's examples. -/
def Obligations.InitfeedStartsWithAByte : Prop :=
  (∀ w : CommandWord, (∃ b, decode w = .initfeed b) ↔ w &&& 0x300 = 0x300) ∧
  (∀ b : Byte, decode (0x300 ||| b.setWidth 10) = .initfeed b) ∧
  (∀ (s : State) (b : Byte), exec (.initfeed b) s = .next { s with crc := .value (byteStep 0xB704CE b) }) ∧
  (∀ (s : State) (b : Byte) (rest : List DriverCycle), ∃ t u,
    runFor 1 { s with driver := presentCommands [.initfeed b] ++ rest } = .next t ∧
    runFor 2 { s with driver := presentCommands [.init, .feed b] ++ rest } = .next u ∧
    t.crc = u.crc ∧ u.cycle = t.cycle + 1) ∧
  byteStep 0xB704CE 0x00 = 0x6169D3 ∧ byteStep 0xB704CE 0xFF = 0xBCECEB ∧ byteStep 0xB704CE 0x31 = 0x2EBA48

/-- The frame of the four commands: a command that answers a next state changed `CRC` alone, NOP not even that. (The
machine has no other register, no flag and no memory: R24, R26, R27, R40.) -/
def Obligations.CommandsChangeOnlyTheCrc : Prop :=
  ∀ (i : Instr) (s t : State), exec i s = .next t →
    t.cycle = s.cycle ∧ t.driver = s.driver ∧ t.draws = s.draws ∧ (i = .nop → t.crc = s.crc)

/-- R25, and the frame of a step: the cycle index advances by exactly one whatever the inputs, the driver goes on by one
cycle, and a draw is taken exactly at an edge with an undefined input (the draws and the driver's list are the model's own
fields, log entries 1 and 3). -/
def Obligations.EveryStepAdvancesOneCycle : Prop :=
  ∀ s t : State, step s = .next t →
    t.cycle = s.cycle + 1 ∧ t.driver = s.driver.tail ∧
    t.draws = (if s.current.driven then s.draws else s.draws + 1)

/-- R156, R160: any commands in any order, one per cycle with no gap, all complete, each taking one cycle. -/
def Obligations.AnyCommandSequenceCompletes : Prop :=
  ∀ (is : List Instr) (s : State) (rest : List DriverCycle), s.driver = presentCommands is ++ rest →
    runFor is.length s = .next (after s is.length rest (is.foldl (fun c i => effect i c) s.crc))

/-! ## Reset, power-up and observation -/

/-- R152: `CRC` and `crc_out` after reset and after power-up. -/
def Obligations.ResetAndPowerUpValues : Prop :=
  State.reset.crc = .value 0xB704CE ∧ State.reset.crcOut = .ok 0xB704CE ∧
  State.powerUp.crc = .unwritten ∧ State.powerUp.crcOut = .error .crcOutUnwritten ∧
  ∀ s : State, ∃ t, clockEdge .reset s = .next t ∧ t.crc = State.reset.crc

/-- R150: a reset edge loads 0xB704CE whatever the command word and whatever `CRC` held; the next cycles show the CRC of
the empty message; holding `rst = 1` for several edges does what one edge does. The command of each edge is any word. -/
def Obligations.ResetLoadsInitValue : Prop :=
  (∀ (e : State), clockEdge .reset e = .next { e with crc := .value 0xB704CE }) ∧
  (∀ (s : State) (ws : List CommandWord) (rest : List DriverCycle), ws ≠ [] →
    s.driver = ws.map DriverCycle.resetWith ++ rest →
    runFor ws.length s = .next (after s ws.length rest (.value 0xB704CE)) ∧
    (after s ws.length rest (.value 0xB704CE)).crcOut = .ok (crc24 []) ∧ crc24 [] = 0xB704CE)

/-- R23, R151: from power-up, `UNWRITTEN` survives every run of NOP and FEED cycles; the first reset edge, INIT or
INITFEED after them gives `CRC` a value; and an observation in that interval faults. -/
def Obligations.CrcIsUnwrittenUntilAStart : Prop :=
  State.powerUp.crc = .unwritten ∧
  (∀ (s : State) (cs : List DriverCycle) (m : List Byte) (rest : List DriverCycle), s.crc = .unwritten →
    carried cs = some m → (∀ c ∈ cs, c.observe = false) → s.driver = cs ++ rest →
    runFor cs.length s = .next (after s cs.length rest .unwritten)) ∧
  (∀ (s : State) (cs : List DriverCycle) (c : DriverCycle) (m m0 : List Byte) (rest : List DriverCycle),
    s.crc = .unwritten → carried cs = some m → (∀ d ∈ cs, d.observe = false) → c.observe = false →
    c.starts = some m0 → s.driver = cs ++ c :: rest →
    runFor (cs.length + 1) s = .next (after s (cs.length + 1) rest (.value (crc24 m0)))) ∧
  (∀ s : State, s.crc = .unwritten →
    s.crcOut = .error .crcOutUnwritten ∧ (s.current.observe = true → step s = .fault .crcOutUnwritten))

/-- R29, R130: the block refuses, stalls and faults on nothing: a step stops only where the driver samples `crc_out`
while `CRC` is `UNWRITTEN`, and there it does. -/
def Obligations.OnlyAnUnwrittenReadStops : Prop :=
  ∀ s : State,
    (∀ r, step s ≠ .refused r) ∧
    (∀ f, step s = .fault f ↔ s.current.observe = true ∧ s.crc = .unwritten) ∧
    ((∃ t, step s = .next t) ↔ ¬(s.current.observe = true ∧ s.crc = .unwritten))

/-- R48: a read of `crc_out` gives all 24 bits of `CRC`, and sampling it has no side effect: with `CRC` written, the step
is the same whether or not the driver samples the output. -/
def Obligations.ReadingCrcOutHasNoSideEffect : Prop :=
  (∀ (s : State) (v : Bits24), s.crcOut = .ok v ↔ s.crc = .value v) ∧
  (∀ (s : State) (c : DriverCycle) (rest : List DriverCycle), s.crc ≠ .unwritten →
    step { s with driver := c.observing :: rest } = step { s with driver := { c with observe := false } :: rest })

/-- R49: on a path wider than 24 bits, `crc_out` stands in bits 23 to 0 and the bits above are zero. -/
def Obligations.WiderPathHasZeroUpperBits : Prop :=
  ∀ (s : State) (v : Bits24) (n : Nat), 24 < n → s.crcOut = .ok v →
    ∃ x : BitVec n, s.crcOutOn n = .ok x ∧ (∀ k, k < 24 → x.getLsbD k = v.getLsbD k) ∧
      ∀ k, 24 ≤ k → x.getLsbD k = false

/-- R115, R155: during cycle t `crc_out` shows the value from before the command of cycle t, whatever the ports carry; in
every cycle after it, up to the next edge that writes `CRC`, it shows the value the command gave. -/
def Obligations.ResultIsVisibleFromTheNextCycle : Prop :=
  (∀ (s : State) (d : List DriverCycle), { s with driver := d }.crcOut = s.crcOut) ∧
  (∀ (s : State) (v : Bits24), s.crcOut = .ok v ↔ s.crc = .value v) ∧
  (∀ s : State, s.crcOut = .error .crcOutUnwritten ↔ s.crc = .unwritten) ∧
  (∀ (s : State) (i : Instr) (v : Bits24) (ws : List CommandWord) (rest : List DriverCycle),
    effect i s.crc = .value v → (∀ w ∈ ws, decode w = .nop) →
    s.driver = .ofWord (encode i) :: (presentWords ws ++ rest) →
    ∀ k, k ≤ ws.length → ∃ t, runFor (k + 1) s = .next t ∧ t.cycle = s.cycle + k + 1 ∧ t.crcOut = .ok v)

/-- R141: where the driver leaves an input it must define undefined, the next `CRC` is a free value, whatever that value
is, and the machine goes on; where it defines them all, no draw is taken. The form of the free value is the model's (log
entry 3), and so is reading R141 word for word at an edge with `rst = 1` and on an `UNWRITTEN` register (log entries 4
and 5). -/
def Obligations.UndefinedInputsGiveAFreeValue : Prop :=
  (∀ (s : State) (c : DriverCycle) (rest : List DriverCycle), s.driver = c :: rest →
    (c.observe = true → s.crc ≠ .unwritten) →
    (c.rst = .undefined ∨ c.init = .undefined ∨ c.dataValid = .undefined ∨
      (c.dataValid = .defined true ∧ c.dataIn = .undefined)) →
    step s = .next { crc := .value (Config.freeCrc s.draws), cycle := s.cycle + 1, driver := rest
                     draws := s.draws + 1 }) ∧
  (∀ c : DriverCycle, c.driven = true ↔
    c.rst ≠ .undefined ∧ c.init ≠ .undefined ∧ c.dataValid ≠ .undefined ∧
    (c.dataValid = .defined true → c.dataIn ≠ .undefined))

/-- The model's reading of a driver with nothing left to present (log entry 2, a DESIGN CHOICE): its inputs are undefined,
so each further cycle is one of R141's. -/
def Obligations.ExhaustedDriverPresentsNothing : Prop :=
  ∀ (s : State), s.driver = [] → ∀ n, ∃ t, runFor (n + 1) s = .next t ∧
    t.crc = .value (Config.freeCrc (s.draws + n)) ∧ t.driver = [] ∧ t.cycle = s.cycle + n + 1

/-! ## Whole-machine rules -/

/-- The invariant: `CRC` holds a value. A step from such a state, whatever the driver does, answers a next state that
has it too: once started, the machine never stops and `crc_out` is always readable (R29, R130, R153). -/
def Obligations.WrittenCrcStaysWritten : Prop :=
  ∀ s : State, s.written = true → ∃ t, step s = .next t ∧ t.written = true

/-- The state after reset has the invariant (R150, R153). -/
def Obligations.ResetStateIsWritten : Prop := State.reset.written = true ∧ State.powerUp.written = false

/-- R50: a byte is captured at the edge where its command is sampled. What the driver does later, and the cycle index,
do not enter the next value of `CRC`: two states that agree on `CRC`, the current cycle and the draws agree on it. For a
cycle with undefined inputs this is no rule of the spec but the model's choice (log entry 3): a free value is a function of
the draw counter alone, and `draws` is a field of the model's own. -/
def Obligations.OnlyTheCurrentCycleIsSampled : Prop :=
  ∀ s s' t : State, s.crc = s'.crc → s.current = s'.current → s.draws = s'.draws → step s = .next t →
    ∃ t', step s' = .next t' ∧ t'.crc = t.crc ∧ t'.draws = t.draws

/-- R157, R114: a start of message discards everything before it. Two runs that differ only in the value `CRC` held
before a reset edge, INIT or INITFEED are one run from the next cycle on, for every number of cycles. -/
def Obligations.StartDiscardsTheOldMessage : Prop :=
  ∀ (s : State) (a b : CrcReg) (c : DriverCycle) (m0 : List Byte) (rest : List DriverCycle),
    s.driver = c :: rest → c.observe = false → c.starts = some m0 →
    (∃ t, runFor 1 { s with crc := a } = .next t ∧ t.crc = .value (crc24 m0)) ∧
    ∀ n, runFor (n + 1) { s with crc := a } = runFor (n + 1) { s with crc := b }

/-- R116, the message law: from any state, a start of message (reset edge, INIT, or INITFEED with the first byte) and
then FEEDs, with NOPs anywhere between, leave `crc24` of the bytes on `crc_out`. Later cycles may sample the output. -/
def Obligations.MessageLaw : Prop :=
  ∀ (s : State) (start : DriverCycle) (cs rest : List DriverCycle) (m0 m : List Byte),
    start.starts = some m0 → carried cs = some m → s.driver = start :: (cs ++ rest) →
    (start.observe = true → s.crc ≠ .unwritten) →
    runFor (cs.length + 1) s = .next (after s (cs.length + 1) rest (.value (crc24 (m0 ++ m)))) ∧
    (after s (cs.length + 1) rest (.value (crc24 (m0 ++ m)))).crcOut = .ok (crc24 (m0 ++ m))

/-- The block refines the machine whose state is the message so far: in every state whose `CRC` is that of message `m`, a
step with defined inputs leaves the `CRC` of the message the cycle makes of it (R20, R116, R154). -/
def Obligations.CrcIsThatOfTheMessageSoFar : Prop :=
  ∀ (s t : State) (m : Option (List Byte)), s.crc = crcOfMessage m → s.current.driven = true →
    step s = .next t → t.crc = crcOfMessage (messageAfter m s.current)

/-- R52, R138: instances share nothing. A cycle of instance k is the step of that entry, and every other keeps its
state. That a system is a list of states, and that a fault of one instance ends the step of the whole system, are the
model's choices (log entry 14). -/
def Obligations.InstancesShareNoState : Prop :=
  (∀ (sys sys' : List State) (k : Nat), stepInstance k sys = some (.next sys') →
    ∃ s t, sys[k]? = some s ∧ step s = .next t ∧ sys'[k]? = some t ∧ sys'.length = sys.length ∧
      ∀ j, j ≠ k → sys'[j]? = sys[j]?) ∧
  (∀ (sys : List State) (k : Nat) (s : State), sys[k]? = some s → s.written = true →
    ∃ sys', stepInstance k sys = some (.next sys'))

/-! ## The assembler -/

/-- R67: the word and the reset input of each line's cycle; don't-care bits are 0. The last clause, that a line with a byte
above 255 assembles to nothing, is the model's choice (log entry 13, a DESIGN CHOICE); R67 says only that a byte is a number
from 0 to 255. -/
def Obligations.LinesAssembleToTheirWords : Prop :=
  Asm.assemble [.command .nop] = some [.ofWord 0x000] ∧
  (∀ b : Nat, b ≤ 255 → Asm.assemble [.command (.feed b)] = some [.ofWord (0x100 ||| BitVec.ofNat 10 b)]) ∧
  Asm.assemble [.command .init] = some [.ofWord 0x200] ∧
  (∀ b : Nat, b ≤ 255 → Asm.assemble [.command (.initfeed b)] = some [.ofWord (0x300 ||| BitVec.ofNat 10 b)]) ∧
  Asm.assemble [.rst none] = some [.resetWith 0x000] ∧
  (∀ (c : Asm.Command), c.wf = true → Asm.assemble [.rst (some c)] = some [.resetWith (encode c.instr)]) ∧
  (∀ b : Nat, 255 < b → Asm.assemble [.command (.feed b)] = none ∧ Asm.assemble [.command (.initfeed b)] = none)

/-- The decoder reads an assembled program back, line by line: for every list of well-formed lines, the sampled ports of
its cycles decode to the expanded lines' commands, and a reset line samples as a reset (R60, R62, R67, R68). -/
def Obligations.AssembledProgramsDecodeBack : Prop :=
  ∀ (ls : List Asm.Line), ls.all Asm.Line.wf = true → ∃ cs, Asm.assemble ls = some cs ∧
    cs.length = (ls.flatMap Asm.Line.expand).length ∧
    ∀ (k : Nat) (c : DriverCycle) (r : Bool) (x : Asm.Command), cs[k]? = some c →
      (ls.flatMap Asm.Line.expand)[k]? = some (r, x) →
      c.observe = false ∧ (r = true → c.sample = .reset) ∧
      (r = false → ∃ w, c.sample = .command w ∧ decode w = x.instr)

/-- R68: the expansions of the pseudo-instructions, and the program `CRC24 m`: from any state, it leaves `crc24(m)` on
`crc_out` from the next cycle on. For lists with a number above 255 both sides of an expansion are no program, the model's
choice (log entry 13). -/
def Obligations.PseudoInstructionsExpand : Prop :=
  (∀ n : Nat, Asm.assemble [.wait n] = Asm.assemble (List.replicate n (.command .nop))) ∧
  (∀ bs : List Nat, Asm.assemble [.feeds bs] = Asm.assemble (bs.map fun b => .command (.feed b))) ∧
  Asm.assemble [.crc24 []] = Asm.assemble [.command .init] ∧
  (∀ (b : Nat) (bs : List Nat),
    Asm.assemble [.crc24 (b :: bs)] = Asm.assemble [.command (.initfeed b), .feeds bs]) ∧
  (∀ (s : State) (m : List Byte), ∃ p t, Asm.assemble [.crc24 (m.map BitVec.toNat)] = some p ∧
    runFor p.length (s.withProgram p) = .next t ∧ t.crcOut = .ok (crc24 m))

/-! ## The polynomial feedback core -/

/-- R80: the bit step is the shift with the feedback of POLY24 where bit 23 was set; the corner cases and the example. -/
def Obligations.BitStepShiftsAndFeedsBack : Prop :=
  (∀ a : Bits24, bitStep a = ((a <<< 1) &&& 0xFFFFFF) ^^^ (if a.getLsbD 23 then 0x864CFB else 0)) ∧
  (∀ a : Bits24, feedbackTap (shifted a) = a.getLsbD 23 ∧ feedbackTap (feedback (shifted a)) = false) ∧
  bitStep 0x000000 = 0x000000 ∧ bitStep 0x800000 = 0x864CFB ∧ bitStep 0x7FFFFF = 0xFFFFFE ∧
  bitStep 0xFFFFFF = 0x79B305 ∧ shifted 0xB704CE = 0x16E099C ∧ bitStep 0xB704CE = 0xE84567

/-- R81: the byte step is eight bit steps after the XOR of the byte into bits 23 to 16, in which alone the byte and the
state meet; the corner cases and the example. -/
def Obligations.ByteStepIsEightBitSteps : Prop :=
  (∀ (s : Bits24) (b : Byte), byteStep s b = bitStep^[8] (s ^^^ (b.setWidth 24 <<< 16))) ∧
  (∀ (s : Bits24) (b : Byte), byteStep s b = byteStep (s ^^^ (b.setWidth 24 <<< 16)) 0x00) ∧
  byteStep 0x000000 0x00 = 0x000000 ∧ byteStep 0x000000 0x01 = 0x864CFB ∧ byteStep 0xFFFFFF 0xFF = 0xFFFF00 ∧
  byteStep 0x823BA9 0x00 = 0x823BA9 ∧ byteStep 0xB704CE 0x31 = 0x2EBA48

/-- R83, R84: `crc24` starts at 0xB704CE, takes the bytes in order, and its mask changes nothing; the empty message. -/
def Obligations.Crc24IsTheFoldOfByteSteps : Prop :=
  (∀ m : List Byte, crc24 m = (m.foldl byteStep 0xB704CE) &&& 0xFFFFFF ∧ crc24 m = m.foldl byteStep 0xB704CE) ∧
  crc24 [] = 0xB704CE ∧
  (∀ (m m' : List Byte), crc24 (m ++ m') = m'.foldl byteStep (crc24 m)) ∧
  crc24 [0x31, 0x32, 0x33, 0x34, 0x35, 0x36, 0x37, 0x38, 0x39] = 0x21CF02

/-- R44: most significant bit first. Bit k of the byte reaches the feedback tap in stage 8 - k and not before: flipping it
flips that stage's tap and leaves the taps of the stages before it. -/
def Obligations.BytesEnterMostSignificantBitFirst : Prop :=
  ∀ (s : Bits24) (b : Byte) (k : Nat), k < 8 →
    (∀ j, j < 7 - k → tapOfStage s (b ^^^ (1 <<< k)) j = tapOfStage s b j) ∧
    tapOfStage s (b ^^^ (1 <<< k)) (7 - k) = !(tapOfStage s b (7 - k))

/-- R21: in an accumulator of any width from 25 bits, every value between two bit steps is below 2^24, so a 24-bit
register loses nothing and the source's mask changes nothing. -/
def Obligations.AccumulatorStaysBelowTwoPow24 : Prop :=
  ∀ W : Nat, 25 ≤ W →
    (∀ a : BitVec W, a.toNat < 2 ^ 24 → (accBitStep a).toNat < 2 ^ 24) ∧
    (∀ (b : Byte) (k : Nat), k < 16 ∨ 24 ≤ k → (laneUnsigned W b).getLsbD k = false) ∧
    (∀ m : List Byte, (accumulated (laneUnsigned W) m).toNat < 2 ^ 24 ∧
      maskedResult (laneUnsigned W) m = accumulated (laneUnsigned W) m)

/-- R87: a datapath that shifts in 24 bits never feeds back, and its result is the initial value shifted out. -/
def Obligations.NarrowDatapathNeverFeedsBack : Prop :=
  (∀ a : BitVec 24, accBitStep a = a <<< 1) ∧
  (∀ b : Byte, maskedResult (laneUnsigned 24) [b] = 0x04CE00) ∧
  (∀ b c : Byte, maskedResult (laneUnsigned 24) [b, c] = 0xCE0000) ∧
  (∀ m : List Byte, 3 ≤ m.length → maskedResult (laneUnsigned 24) m = 0x000000)

/-- R88: every accumulator of 25 bits or more computes exactly `crc24`; bits 25 and above stay zero throughout, in the
shifted value too. -/
def Obligations.EveryWidthFrom25GivesCrc24 : Prop :=
  ∀ W : Nat, 25 ≤ W →
    (∀ m : List Byte, maskedResult (laneUnsigned W) m = (crc24 m).setWidth W ∧
      accumulated (laneUnsigned W) m = (crc24 m).setWidth W) ∧
    (∀ (m : List Byte) (b : Byte) (n k : Nat), n < 8 → 25 ≤ k →
      (accBitSteps n (accumulated (laneUnsigned W) m ^^^ laneUnsigned W b) <<< 1).getLsbD k = false)

/-- R89, C3: the byte enters zero-extended. In a software accumulator, sign-extending it leaves the masked result as it is
for every width from 25, and the unmasked one up to 32; above that a byte from 0x80 shows in the unmasked accumulator.
Shifting the byte inside an 8-bit type does corrupt the result. -/
def Obligations.SignExtensionLeavesTheMaskedResult : Prop :=
  (∀ b : Byte, (alignByte b).toNat = b.toNat * 2 ^ 16) ∧
  (∀ (W : Nat) (m : List Byte), 25 ≤ W → maskedResult (laneSigned W) m = maskedResult (laneUnsigned W) m) ∧
  (∀ (W : Nat) (m : List Byte), 25 ≤ W → W ≤ 32 →
    accumulated (laneSigned W) m = accumulated (laneUnsigned W) m) ∧
  (∀ (W : Nat) (b : Byte), 32 < W → 0x80 ≤ b.toNat →
    accumulated (laneSigned W) [b] ≠ accumulated (laneUnsigned W) [b]) ∧
  (∀ (W : Nat) (b : Byte), laneEightBit W b = 0) ∧
  maskedResult (laneEightBit 32) [0x31, 0x32, 0x33, 0x34, 0x35, 0x36, 0x37, 0x38, 0x39] = 0xEC2801

/-- R8: the polynomial `POLY` stands for. The reading in Mathlib's polynomials over `ZMod 2` is log entry 16 (DEDUCED). -/
def Obligations.PolyConstantIsTheGenerator : Prop :=
  open Polynomial in
  generator = X ^ 24 + X ^ 23 + X ^ 18 + X ^ 17 + X ^ 14 + X ^ 11 + X ^ 10 + X ^ 7 + X ^ 6 + X ^ 5 + X ^ 4 + X ^ 3 +
    X + 1

/-- R91: the bit step multiplies by x modulo g(x) over GF(2), the byte step and the whole-message function follow. The
reading in Mathlib's polynomials over `ZMod 2`, with the remainder by the monic generator, is log entry 16 (DEDUCED). -/
def Obligations.StepsArePolynomialRemainders : Prop :=
  open Polynomial in
  (∀ a : Bits24, toPoly (bitStep a) = (toPoly a * X) %ₘ generator) ∧
  (∀ (s : Bits24) (b : Byte), toPoly (byteStep s b) = ((toPoly s + toPoly b * X ^ 16) * X ^ 8) %ₘ generator) ∧
  (∀ m : List Byte, toPoly (crc24 m) =
    (toPoly Config.initValue * X ^ (8 * m.length) + messagePoly m * X ^ 24) %ₘ generator)

/-- R92: both steps are linear over XOR, and `crc24` is affine on messages of one length. -/
def Obligations.ChecksumIsAffine : Prop :=
  (∀ a b : Bits24, bitStep (a ^^^ b) = bitStep a ^^^ bitStep b) ∧
  (∀ (s t : Bits24) (b c : Byte), byteStep (s ^^^ t) (b ^^^ c) = byteStep s b ^^^ byteStep t c) ∧
  byteStep 0 0 = 0 ∧
  (∀ m n : List Byte, m.length = n.length →
    crc24 (List.zipWith (· ^^^ ·) m n) = crc24 m ^^^ crc24 n ^^^ crc24 (List.replicate m.length 0) ∧
    crc24 (List.zipWith (· ^^^ ·) m n) = crc24 m ^^^ crc24Zero n)

/-- R93: for each byte, the byte step is a bijection on the states. -/
def Obligations.ByteStepIsABijection : Prop :=
  ∀ b : Byte, Function.Bijective fun s : Bits24 => byteStep s b

/-- R94: the table-driven form is the byte step; the rule's three examples of T. -/
def Obligations.TableDrivenFormIsByteStep : Prop :=
  (∀ (s : Bits24) (b : Byte), tableByteStep s b = byteStep s b) ∧
  tableEntry 0x01 = 0x864CFB ∧ tableEntry 0x80 = 0x3347A4 ∧ tableEntry 0xFF = 0xDD8538

/-- V-TABLE: the printed table is T, all 256 entries. -/
def Obligations.PrintedTableIsT : Prop :=
  printedTable.length = 256 ∧ ∀ i : Byte, printedTable[i.toNat]? = some (tableEntry i)

/-- R95: the bit-serial form, k = 7 down to 0, is the byte step. -/
def Obligations.BitSerialFormIsByteStep : Prop :=
  ∀ (s : Bits24) (b : Byte), serialByteStep s b = byteStep s b

/-- R96: two messages of equal length that differ in exactly one byte have different CRCs, whatever the pattern. -/
def Obligations.SingleByteErrorsAreDetected : Prop :=
  ∀ (before behind : List Byte) (b b' : Byte), b ≠ b' →
    crc24 (before ++ b :: behind) ≠ crc24 (before ++ b' :: behind)

/-- R97: what a zero byte does to a CRC, and the two CRCs it leaves. -/
def Obligations.ZeroByteKeepsExactlyTwoCrcs : Prop :=
  (∀ m : List Byte, crc24 (m ++ [0x00]) = byteStep (crc24 m) 0x00) ∧
  (∀ m : List Byte, crc24 (m ++ [0x00]) = crc24 m ↔ crc24 m = 0x000000 ∨ crc24 m = 0x823BA9) ∧
  (∀ s : Bits24, byteStep s 0x00 = s ↔ s = 0x000000 ∨ s = 0x823BA9) ∧
  crc24 [0x31, 0x32, 0x33, 0x34, 0x35, 0x36, 0x37, 0x38, 0x39, 0x00] = 0x459F12

/-- R98: a message followed by its own CRC, most significant byte first, has the CRC 0; the rule's two examples. -/
def Obligations.MessageWithItsCrcHasResidueZero : Prop :=
  (∀ m : List Byte, crc24 (m ++ [(crc24 m).extractLsb' 16 8, (crc24 m).extractLsb' 8 8, (crc24 m).extractLsb' 0 8])
    = 0x000000) ∧
  crc24 [0x31, 0x32, 0x33, 0x34, 0x35, 0x36, 0x37, 0x38, 0x39, 0x21, 0xCF, 0x02] = 0x000000 ∧
  crc24 [0x31, 0x32, 0x33, 0x34, 0x35, 0x36, 0x37, 0x38, 0x39, 0x02, 0xCF, 0x21] = 0xA76AF4
end

