-- ==== Sys2Proof/Laws/Datapath.lean ====
section
/-! SUPPORT. The small lemmas of the datapath's definitions: how a chain of stages and a message split. -/

namespace Sys2Proof.Machine

@[simp] theorem bitSteps_zero (a : Bits24) : bitSteps 0 a = a := rfl

theorem bitSteps_succ (n : Nat) (a : Bits24) : bitSteps (n + 1) a = bitSteps n (bitStep a) := rfl

theorem bitSteps_add (m n : Nat) (a : Bits24) : bitSteps (m + n) a = bitSteps n (bitSteps m a) := by
  induction m generalizing a with
  | zero => simp
  | succ m ih => rw [Nat.add_right_comm, bitSteps_succ, bitSteps_succ, ih]

@[simp] theorem absorbAll_nil (a : Bits24) : absorbAll a [] = a := rfl

@[simp] theorem absorbAll_cons (a : Bits24) (b : Byte) (m : List Byte) :
    absorbAll a (b :: m) = absorbAll (byteStep a b) m := rfl

@[simp] theorem absorbAll_append (a : Bits24) (m n : List Byte) :
    absorbAll a (m ++ n) = absorbAll (absorbAll a m) n := List.foldl_append ..

/-- The output mask keeps every bit of a 24-bit value. -/
theorem and_outMask (a : Bits24) : a &&& Config.outMask = a := BitVec.and_allOnes

@[simp] theorem accBitSteps_zero {W : Nat} (a : BitVec W) : accBitSteps 0 a = a := rfl

theorem accBitSteps_succ {W : Nat} (n : Nat) (a : BitVec W) :
    accBitSteps (n + 1) a = accBitSteps n (accBitStep a) := rfl

end Sys2Proof.Machine
end

