-- ==== Sys2Proof/Laws/State.lean ====
section
/-! SUPPORT. One lemma per field per update of the state, each true by unfolding, so that no proof unfolds an update. -/

namespace Sys2Proof.Machine
variable (s : State) (v : Bits24) (w : Nat) (p : List DriverCycle)

@[simp] theorem writeCrc_crc : (s.writeCrc v).crc = .value v := rfl
@[simp] theorem writeCrc_cycle : (s.writeCrc v).cycle = s.cycle := rfl
@[simp] theorem writeCrc_driver : (s.writeCrc v).driver = s.driver := rfl
@[simp] theorem writeCrc_draws : (s.writeCrc v).draws = s.draws := rfl

@[simp] theorem resetEdge_crc : s.resetEdge.crc = .value Config.initValue := rfl
@[simp] theorem resetEdge_cycle : s.resetEdge.cycle = s.cycle := rfl
@[simp] theorem resetEdge_driver : s.resetEdge.driver = s.driver := rfl
@[simp] theorem resetEdge_draws : s.resetEdge.draws = s.draws := rfl

@[simp] theorem undefinedEdge_crc : s.undefinedEdge.crc = .value (Config.freeCrc s.draws) := rfl
@[simp] theorem undefinedEdge_cycle : s.undefinedEdge.cycle = s.cycle := rfl
@[simp] theorem undefinedEdge_driver : s.undefinedEdge.driver = s.driver := rfl
@[simp] theorem undefinedEdge_draws : s.undefinedEdge.draws = s.draws + 1 := rfl

@[simp] theorem nextCycle_crc : s.nextCycle.crc = s.crc := rfl
@[simp] theorem nextCycle_cycle : s.nextCycle.cycle = s.cycle + 1 := rfl
@[simp] theorem nextCycle_driver : s.nextCycle.driver = s.driver.tail := rfl
@[simp] theorem nextCycle_draws : s.nextCycle.draws = s.draws := rfl

@[simp] theorem presentWord_crc : (s.presentWord w).crc = s.crc := rfl
@[simp] theorem presentWord_cycle : (s.presentWord w).cycle = s.cycle := rfl
@[simp] theorem presentWord_driver :
    (s.presentWord w).driver = .ofWord (BitVec.ofNat 10 w) :: s.driver.tail := rfl
@[simp] theorem presentWord_draws : (s.presentWord w).draws = s.draws := rfl

@[simp] theorem withProgram_crc : (s.withProgram p).crc = s.crc := rfl
@[simp] theorem withProgram_cycle : (s.withProgram p).cycle = s.cycle := rfl
@[simp] theorem withProgram_driver : (s.withProgram p).driver = p := rfl
@[simp] theorem withProgram_draws : (s.withProgram p).draws = s.draws := rfl

@[simp] theorem powerUp_crc : State.powerUp.crc = .unwritten := rfl
@[simp] theorem reset_crc : State.reset.crc = .value Config.initValue := rfl

/-- Two states with equal fields are equal. -/
theorem State.eq_of_fields {s t : State} (hc : s.crc = t.crc) (hi : s.cycle = t.cycle)
    (hd : s.driver = t.driver) (hn : s.draws = t.draws) : s = t := by
  cases s; cases t; simp_all

end Sys2Proof.Machine
end

