-- ==== Sys2Proof/Laws/Ops.lean ====
section
/-! SUPPORT. What each shared operation can do, said once. -/

namespace Sys2Proof.Machine

/-! ## Absorbing a byte (R110, R112) -/

theorem absorb_unwritten {s : State} (b : Byte) (h : s.crc = .unwritten) : s.absorb b = s := by
  simp [State.absorb, h]

theorem absorb_value {s : State} {v : Bits24} (b : Byte) (h : s.crc = .value v) :
    s.absorb b = s.writeCrc (byteStep v b) := by
  simp [State.absorb, h, polyFeedbackCore]

@[simp] theorem absorb_cycle (s : State) (b : Byte) : (s.absorb b).cycle = s.cycle := by
  cases h : s.crc <;> simp [State.absorb, h]

@[simp] theorem absorb_driver (s : State) (b : Byte) : (s.absorb b).driver = s.driver := by
  cases h : s.crc <;> simp [State.absorb, h]

@[simp] theorem absorb_draws (s : State) (b : Byte) : (s.absorb b).draws = s.draws := by
  cases h : s.crc <;> simp [State.absorb, h]

/-! ## The output port (R28, R115) -/

theorem crcOut_value {s : State} {v : Bits24} (h : s.crc = .value v) : s.crcOut = .ok v := by
  simp [State.crcOut, h]

theorem crcOut_unwritten {s : State} (h : s.crc = .unwritten) : s.crcOut = .error .crcOutUnwritten := by
  simp [State.crcOut, h]

/-! ## Sampling the ports (R60, R61, R141) -/

@[simp] theorem commandWord_fields (w : CommandWord) : commandWord (fieldI w) (fieldV w) (fieldD w) = w := by
  revert w
  decide

@[simp] theorem ofWord_sample (w : CommandWord) : (DriverCycle.ofWord w).sample = .command w := by
  simp [DriverCycle.ofWord, DriverCycle.sample]

@[simp] theorem resetWith_sample (w : CommandWord) : (DriverCycle.resetWith w).sample = .reset := by
  simp [DriverCycle.resetWith, DriverCycle.ofWord, DriverCycle.sample]

@[simp] theorem undriven_sample : DriverCycle.undriven.sample = .undefined := rfl

@[simp] theorem ofWord_observe (w : CommandWord) : (DriverCycle.ofWord w).observe = false := rfl

@[simp] theorem resetWith_observe (w : CommandWord) : (DriverCycle.resetWith w).observe = false := rfl

/-- The current cycle is the driver's first, and nothing defined where it has none. -/
theorem current_of_driver {s : State} {c : DriverCycle} {cs : List DriverCycle} (h : s.driver = c :: cs) :
    s.current = c := by
  simp [State.current, h]

theorem current_of_nil {s : State} (h : s.driver = []) : s.current = .undriven := by
  simp [State.current, h]

end Sys2Proof.Machine
end

