-- ==== Sys2Proof/Laws/Exec.lean ====
section
/-! SUPPORT. What `exec` can answer, said once for the four commands. -/

namespace Sys2Proof.Machine

/-- The state each command leaves (R111 to R114): `exec` is total. -/
theorem exec_cases (i : Instr) (s : State) :
    (i = .nop ∧ exec i s = .next s) ∨
    (∃ b, i = .feed b ∧ exec i s = .next (s.absorb b)) ∨
    (i = .init ∧ exec i s = .next (s.writeCrc Config.initValue)) ∨
    (∃ b, i = .initfeed b ∧ exec i s = .next (s.writeCrc (byteStep Config.initValue b))) := by
  cases i with
  | nop => exact .inl ⟨rfl, rfl⟩
  | feed b => exact .inr (.inl ⟨b, rfl, rfl⟩)
  | init => exact .inr (.inr (.inl ⟨rfl, rfl⟩))
  | initfeed b => exact .inr (.inr (.inr ⟨b, rfl, rfl⟩))

end Sys2Proof.Machine
end

