-- ==== Sys2Proof/Laws/PerInstr.lean ====
section
/-! SUPPORT. The per-command family `OpcodeBits`: bits 9 and 8 of a command's word are its row's (R62). -/

namespace Sys2Proof.Laws.OpcodeBits

/-- Bits 9 and 8 of the word select the command's row of R62. -/
def Statement (i : Instr) : Prop :=
  ∀ r ∈ opcodeRows, i.mnemonic = r.1 ↔ encode i &&& 0x300 = r.2.1

theorem nop : Statement .nop := by
  unfold Statement
  decide

theorem feed (b : Byte) : Statement (.feed b) := by
  revert b
  unfold Statement
  decide

theorem init : Statement .init := by
  unfold Statement
  decide

theorem initfeed (b : Byte) : Statement (.initfeed b) := by
  revert b
  unfold Statement
  decide

end Sys2Proof.Laws.OpcodeBits
end

