-- ==== Sys2Proof/Laws/Step.lean ====
section
/-! SUPPORT. What a step can do, said once: the inversion lemma of `step`, and how a run is taken apart. -/

namespace Sys2Proof.Machine

/-- A step whose observation is allowed is the edge that ends the cycle. -/
theorem step_of_allowed {s : State} (h : s.current.observe = true → s.crc ≠ .unwritten) :
    step s = clockEdge s.current.sample s.nextCycle := by
  unfold step runCycle
  split
  · rename_i f ho hf
    cases hc : s.crc with
    | unwritten => exact absurd hc (h ho)
    | value v => simp [crcOut_value hc] at hf
  · rfl

/-- A step that samples `crc_out` while `CRC` is `UNWRITTEN` faults (R151). -/
theorem step_of_unwritten_read {s : State} (ho : s.current.observe = true) (hc : s.crc = .unwritten) :
    step s = .fault .crcOutUnwritten := by
  unfold step runCycle
  simp [ho, crcOut_unwritten hc]

/-- All a step can do: it faults on the one read the spec makes a fault, or the edge is a reset, one command, or an edge
with undefined inputs. -/
theorem step_cases (s : State) :
    (s.current.observe = true ∧ s.crc = .unwritten ∧ step s = .fault .crcOutUnwritten) ∨
    ((s.current.observe = true → s.crc ≠ .unwritten) ∧
      ((s.current.sample = .reset ∧ step s = .next s.nextCycle.resetEdge) ∨
       (∃ w, s.current.sample = .command w ∧ step s = exec (decode w) s.nextCycle) ∨
       (s.current.sample = .undefined ∧ step s = .next s.nextCycle.undefinedEdge))) := by
  by_cases h : s.current.observe = true ∧ s.crc = .unwritten
  · exact .inl ⟨h.1, h.2, step_of_unwritten_read h.1 h.2⟩
  · have h' : s.current.observe = true → s.crc ≠ .unwritten := fun ho hc => h ⟨ho, hc⟩
    refine .inr ⟨h', ?_⟩
    rw [step_of_allowed h']
    cases hs : s.current.sample with
    | reset => exact .inl ⟨rfl, rfl⟩
    | command w => exact .inr (.inl ⟨w, rfl, rfl⟩)
    | undefined => exact .inr (.inr ⟨rfl, rfl⟩)

/-- The first step of a run. -/
theorem run_succ_of_step {s t : State} (n : Nat) (h : step s = .next t) :
    Sys2Proof.core.run (n + 1) s = Sys2Proof.core.run n t := by
  have h' : Sys2Proof.core.step s = .next t := h
  simp [Host.Core.run, h']

/-- A run in two parts. -/
theorem run_add_of_run {s t : State} (m n : Nat) (h : Sys2Proof.core.run m s = .next t) :
    Sys2Proof.core.run (m + n) s = Sys2Proof.core.run n t := by
  induction m generalizing s with
  | zero =>
    cases h
    rw [Nat.zero_add]
  | succ m ih =>
    rw [Nat.add_right_comm]
    simp only [Host.Core.run] at h ⊢
    split at h
    · exact ih h
    · cases h
    · cases h

end Sys2Proof.Machine
end

