-- ==== Sys2Proof/Tests/Slice0.lean ====
section
/-!
SUPPORT. The model's own tests. Expected values are those of spec/95_test_vectors.md and of the rules' examples; words are
written out bit by bit from spec/30_encoding.md R60 and R62. The `witness_` theorems show, for each statement with
hypotheses, a concrete input that meets them together, at the boundary values of its clauses.
-/

namespace Sys2Proof.Tests
open Sys2Proof Sys2Proof.Machine Sys2Proof.Claims

/-! ## Helpers -/

/-- A state with a given register and a driver that presents the given words. -/
def withWords (c : CrcReg) (ws : List CommandWord) : State :=
  { crc := c, cycle := 0, driver := presentWords ws, draws := 0 }

/-- A state with a given register and one cycle of the driver. -/
def withCycle (c : CrcReg) (d : DriverCycle) : State := { crc := c, cycle := 0, driver := [d], draws := 0 }

/-- The next state, where there is one. -/
def nextOf (o : Host.Outcome State Fault Refusal) : Option State :=
  match o with
  | .next t => some t
  | .fault _ => none
  | .refused _ => none

/-- `CRC` in the next state, where there is one. -/
def crcAfter (o : Host.Outcome State Fault Refusal) : Option CrcReg := (nextOf o).map State.crc

/-! ## Well-formed lines: each check refuses an ill-formed term -/

theorem test_wf_refuses_wide_feed : (Asm.Command.feed 256).wf = false := by decide
theorem test_wf_refuses_wide_initfeed : (Asm.Command.initfeed 256).wf = false := by decide
theorem test_wf_refuses_wide_rst_command : (Asm.Line.rst (some (.feed 300))).wf = false := by decide
theorem test_wf_refuses_wide_byte_of_feeds : (Asm.Line.feeds [0, 255, 256]).wf = false := by decide
theorem test_wf_refuses_wide_byte_of_crc24 : (Asm.Line.crc24 [256]).wf = false := by decide
theorem test_wf_accepts_255 : (Asm.Command.feed 255).wf = true := by decide

/-! ## Decoding: each command's word, bit by bit (R60, R62) -/

theorem test_decode_nop : decode 0b0000000000 = .nop := by decide
theorem test_decode_nop_ignores_data : decode 0b0011111111 = .nop := by decide
theorem test_decode_feed : decode 0b0100110001 = .feed 0x31 := by decide
theorem test_decode_feed_all_ones : decode 0b0111111111 = .feed 0xFF := by decide
theorem test_decode_init : decode 0b1000000000 = .init := by decide
theorem test_decode_init_ignores_data : decode 0b1010100101 = .init := by decide
theorem test_decode_initfeed : decode 0b1100110010 = .initfeed 0x32 := by decide
theorem test_decode_initfeed_zero : decode 0b1100000000 = .initfeed 0x00 := by decide
theorem test_encode_words : encode .nop = 0x000 ∧ encode (.feed 0x31) = 0x131 ∧ encode .init = 0x200 ∧
    encode (.initfeed 0x31) = 0x331 := by decide
theorem test_table_word_refuses_eleven_bits : decodeTableWord 16 0x400 = none := by decide
theorem test_table_word_keeps_low_bits : decodeTableWord 16 0x331 = some (.initfeed 0x31) := by decide

/-! ## The datapath (V-BIT, V-BYTE, V-TRACE) -/

theorem test_bitStep_no_feedback : bitStep 0x400000 = 0x800000 := by decide
theorem test_bitStep_feedback : bitStep 0x800000 = 0x864CFB := by decide
theorem test_trace_stage_five : bitSteps 5 (0xB704CE ^^^ alignByte 0x31) = 0x05D749 := by decide
theorem test_byteStep_pure_shift : byteStep 0x000001 0x00 = 0x000100 := by decide
theorem test_byteStep_high_byte : byteStep 0xB704CE 0x80 = 0x522E77 := by decide
theorem test_crc24_abc : crc24 [0x61, 0x62, 0x63] = 0xBA1C7B := by decide +kernel

/-! ## One step of the generator (V-CMD, P5) -/

theorem test_step_nop_data_ignored :
    crcAfter (step (withWords (.value 0xFE86FA) [0x0FF])) = some (.value 0xFE86FA) := by decide
theorem test_step_nop_unwritten : crcAfter (step (withWords .unwritten [0x000])) = some .unwritten := by decide
theorem test_step_feed : crcAfter (step (withWords (.value 0xFFFFFF) [0x1FF])) = some (.value 0xFFFF00) := by decide
theorem test_step_feed_unwritten : crcAfter (step (withWords .unwritten [0x131])) = some .unwritten := by decide
theorem test_step_init_data_ignored :
    crcAfter (step (withWords (.value 0xE6E7F9) [0x2A5])) = some (.value 0xB704CE) := by decide
theorem test_step_init_unwritten : crcAfter (step (withWords .unwritten [0x200])) = some (.value 0xB704CE) := by decide
theorem test_step_initfeed :
    crcAfter (step (withWords (.value 0x123456) [0x300])) = some (.value 0x6169D3) := by decide
theorem test_step_initfeed_unwritten :
    crcAfter (step (withWords .unwritten [0x332])) = some (.value 0x2223BE) := by decide
theorem test_step_reset_overrides_feed :
    crcAfter (step (withCycle (.value 0x2223BE) (.resetWith 0x133))) = some (.value 0xB704CE) := by decide
theorem test_step_reset_from_unwritten :
    crcAfter (step (withCycle .unwritten (.resetWith 0x000))) = some (.value 0xB704CE) := by decide
theorem test_step_undefined_data_is_a_draw :
    crcAfter (step (withCycle (.value 0)
      ⟨.defined false, .defined false, .defined true, .undefined, false⟩)) = some (.value (Config.freeCrc 0)) := rfl
theorem test_step_undefined_data_without_valid_is_a_nop :
    crcAfter (step (withCycle (.value 0x123456)
      ⟨.defined false, .defined false, .defined false, .undefined, false⟩)) = some (.value 0x123456) := by decide
theorem test_step_observing_unwritten_faults :
    nextOf (step (withCycle .unwritten (DriverCycle.ofWord 0x200).observing)) = none := by decide
theorem test_step_observing_written_goes_on :
    crcAfter (step (withCycle (.value 0x2EBA48) (DriverCycle.ofWord 0x132).observing)) =
      some (.value 0x4D6151) := by decide
theorem test_fetch_word_runs_after_reset :
    crcAfter (step (State.reset.withFetchWord 16 0x131)) = some (.value 0x2EBA48) := by decide
theorem test_step_advances_the_driver :
    nextOf (step (withWords .unwritten [0x200, 0x141])) =
      some { crc := .value 0xB704CE, cycle := 1, driver := presentWords [0x141], draws := 0 } := by decide
theorem test_crc_out_on_a_wider_path :
    (withWords (.value 0xB704CE) []).crcOutOn 32 = .ok 0x00B704CE := rfl

/-! ## The assembler (R67, R68, P5) -/

theorem test_assemble_reset_line_with_command :
    Asm.assembleChars ['r', 's', 't', ' ', 'F', 'e', 'e', 'd', ' ', '\'', '3', '\'', ' ', ';', ' ', 'x'] =
      some [.resetWith 0x133] := by decide
theorem test_assemble_hex_decimal_and_blank_lines :
    Asm.assembleChars ['F', 'E', 'E', 'D', ' ', '0', 'x', 'A', 'f', '\n', '\n', 'I', 'N', 'I', 'T', 'F', 'E', 'E', 'D', '\t',
      '4', '9', '\n'] = some [.ofWord 0x1AF, .ofWord 0x331] := by decide
theorem test_assemble_refuses_256 :
    Asm.assembleChars ['F', 'E', 'E', 'D', ' ', '2', '5', '6'] = none := by decide
theorem test_assemble_crc24_of_a_string :
    Asm.assembleChars ['C', 'R', 'C', '2', '4', ' ', '"', 'A', ';', '"'] = some [.ofWord 0x341, .ofWord 0x13B] := by decide
theorem test_assemble_feeds_list_and_wait :
    Asm.assembleChars ['F', 'E', 'E', 'D', 'S', ' ', '1', ',', ' ', '\'', ';', '\'', '\n', 'W', 'A', 'I', 'T', ' ', '1'] =
      some [.ofWord 0x101, .ofWord 0x13B, .ofWord 0x000] := by decide

/-! ## Witnesses: inputs that meet each statement's hypotheses together -/

theorem witness_EveryWordIsOneCommand :
    ("FEED", (0x100 : CommandWord), (0x300 : CommandWord)) ∈ opcodeRows ∧ (0x1FF : CommandWord) &&& 0x300 = 0x100 := by
  decide

theorem witness_DecodeInvertsEncode : (Instr.feed 0xFF).wf = true ∧ 10 ≤ 16 ∧ 10 ≤ 10 ∧ 1024 ≤ 1024 := by decide

theorem witness_DataBitsMatterOnlyWhenValid :
    (withWords (.value 0) []).crc = .value 0 ∧ (0x00 : Byte) ≠ 0x01 := by decide

theorem witness_StepRunsTheDecodedCommand :
    (withCycle (.value 0) ⟨.defined false, .defined true, .defined true, .defined 0xFF, true⟩).driver =
      ⟨.defined false, .defined true, .defined true, .defined 0xFF, true⟩ :: [] ∧
    (withCycle .unwritten ⟨.defined true, .defined false, .defined true, .defined 0, false⟩).driver =
      ⟨.defined true, .defined false, .defined true, .defined 0, false⟩ :: [] ∧
    (true = true → (CrcReg.value 0) ≠ .unwritten) ∧ (false = true → CrcReg.unwritten ≠ .unwritten) := by decide

theorem witness_StepIsTheSpecsStep :
    (withCycle (.value 0xFFFFFF)
      ⟨.defined true, .defined (fieldI 0x331), .defined (fieldV 0x331), .defined (fieldD 0x331), true⟩).driver =
      ⟨.defined true, .defined (fieldI 0x331), .defined (fieldV 0x331), .defined (fieldD 0x331), true⟩ :: [] ∧
    (true = true → (CrcReg.value 0xFFFFFF) ≠ .unwritten) := by decide

theorem witness_NopHoldsTheCrc :
    (∀ w ∈ [(0x000 : CommandWord), 0x0FF], w &&& 0x300 = 0x000) ∧
    (withWords .unwritten [0x000, 0x0FF]).driver = presentWords [0x000, 0x0FF] ++ [] := by decide

theorem witness_FeedAbsorbsOneByte :
    (withWords (.value 0xFFFFFF) [0x1FF, 0x100]).crc = .value 0xFFFFFF ∧ (withWords .unwritten []).crc = .unwritten ∧
    (withWords (.value 0xFFFFFF) [0x1FF, 0x100]).driver =
      presentCommands ([(0xFF : Byte), 0x00].map .feed) ++ [] := by decide

theorem witness_InitStartsAMessage :
    nextOf (exec .init (withWords .unwritten [])) = some (withWords (.value 0xB704CE) []) := by decide

theorem witness_CommandsChangeOnlyTheCrc :
    nextOf (exec .nop (withWords (.value 5) [0x131])) = some (withWords (.value 5) [0x131]) ∧
    nextOf (exec (.feed 0x31) (withWords (.value 0xB704CE) [])) = some (withWords (.value 0x2EBA48) []) := by decide

theorem witness_EveryStepAdvancesOneCycle :
    (nextOf (step (withWords (.value 5) [0x000]))).isSome = true ∧
    (withWords (.value 5) [0x000]).current.driven = true ∧
    (nextOf (step (withCycle (.value 5) .undriven))).isSome = true ∧
    (withCycle (.value 5) .undriven).current.driven = false := by decide

theorem witness_AnyCommandSequenceCompletes :
    (withWords .unwritten [0x1FF, 0x300, 0x200, 0x000]).driver =
      presentCommands [.feed 0xFF, .initfeed 0x00, .init, .nop] ++ [] := by decide

theorem witness_ResetLoadsInitValue :
    [(0x133 : CommandWord), 0x3FF] ≠ [] ∧
    { withWords .unwritten [] with driver := [.resetWith 0x133, .resetWith 0x3FF] }.driver =
      [(0x133 : CommandWord), 0x3FF].map DriverCycle.resetWith ++ [] := by decide

theorem witness_CrcIsUnwrittenUntilAStart :
    (withWords .unwritten [0x131, 0x000, 0x332]).crc = .unwritten ∧
    carried (presentWords [0x131, 0x000]) = some [0x31] ∧
    (∀ c ∈ presentWords [0x131, 0x000], c.observe = false) ∧ (DriverCycle.ofWord 0x332).observe = false ∧
    (DriverCycle.ofWord 0x332).starts = some [0x32] ∧ (DriverCycle.ofWord 0x200).starts = some [] ∧
    (DriverCycle.resetWith 0x131).starts = some [] ∧
    (withWords .unwritten [0x131, 0x000, 0x332]).driver =
      presentWords [0x131, 0x000] ++ (.ofWord 0x332) :: [] ∧
    (withCycle .unwritten (DriverCycle.ofWord 0x131).observing).current.observe = true := by decide

theorem witness_ReadingCrcOutHasNoSideEffect :
    (withWords (.value 0) []).crc ≠ .unwritten ∧ (withWords (.value 0xFFFFFF) []).crc = .value 0xFFFFFF := by decide

theorem witness_WiderPathHasZeroUpperBits : 24 < 25 ∧ (withWords (.value 0xFFFFFF) []).crcOut = .ok 0xFFFFFF :=
  ⟨by decide, rfl⟩

theorem witness_ResultIsVisibleFromTheNextCycle :
    effect (.initfeed 0x32) (withWords .unwritten [0x332, 0x0FF]).crc = .value 0x2223BE ∧
    (∀ w ∈ [(0x0FF : CommandWord)], decode w = .nop) ∧
    (withWords .unwritten [0x332, 0x0FF]).driver =
      .ofWord (encode (.initfeed 0x32)) :: (presentWords [0x0FF] ++ []) ∧ 1 ≤ [(0x0FF : CommandWord)].length := by
  decide

theorem witness_UndefinedInputsGiveAFreeValue :
    (withCycle (.value 0) ⟨.undefined, .defined true, .defined false, .undefined, true⟩).driver =
      ⟨.undefined, .defined true, .defined false, .undefined, true⟩ :: [] ∧
    (true = true → (CrcReg.value 0) ≠ .unwritten) ∧
    (DriverCycle.mk .undefined (.defined true) (.defined false) .undefined true).rst = .undefined ∧
    (DriverCycle.mk (.defined false) .undefined (.defined false) (.defined 0) false).init = .undefined ∧
    (DriverCycle.mk (.defined false) (.defined false) .undefined (.defined 0) false).dataValid = .undefined ∧
    (DriverCycle.mk (.defined true) (.defined false) (.defined true) .undefined false).dataValid = .defined true ∧
    (DriverCycle.mk (.defined true) (.defined false) (.defined true) .undefined false).dataIn = .undefined := by decide

theorem witness_ExhaustedDriverPresentsNothing : State.reset.driver = [] := rfl

theorem witness_WrittenCrcStaysWritten : State.reset.written = true ∧ (withWords (.value 0) []).written = true := by
  decide

theorem witness_OnlyTheCurrentCycleIsSampled :
    (withWords (.value 7) [0x131]).crc = (withWords (.value 7) [0x131, 0x200]).crc ∧
    (withWords (.value 7) [0x131]).current = (withWords (.value 7) [0x131, 0x200]).current ∧
    (withWords (.value 7) [0x131]).draws = (withWords (.value 7) [0x131, 0x200]).draws ∧
    (nextOf (step (withWords (.value 7) [0x131]))).isSome = true := by decide

theorem witness_StartDiscardsTheOldMessage :
    (withWords (.value 7) [0x3FF]).driver = .ofWord 0x3FF :: [] ∧ (DriverCycle.ofWord 0x3FF).observe = false ∧
    (DriverCycle.ofWord 0x3FF).starts = some [0xFF] := by decide

theorem witness_MessageLaw :
    (DriverCycle.ofWord 0x363).starts = some [0x63] ∧ carried (presentWords [0x000, 0x164, 0x0FF]) = some [0x64] ∧
    (withWords (.value 0xA11A2D) [0x363, 0x000, 0x164, 0x0FF, 0x200]).driver =
      .ofWord 0x363 :: (presentWords [0x000, 0x164, 0x0FF] ++ presentWords [0x200]) ∧
    ((DriverCycle.ofWord 0x363).observe = true → (CrcReg.value 0xA11A2D) ≠ .unwritten) ∧
    (DriverCycle.resetWith 0x0FF).starts = some [] ∧ (DriverCycle.ofWord 0x2FF).starts = some [] := by decide

theorem witness_CrcIsThatOfTheMessageSoFar :
    (withWords (.value 0xF25713) [0x162]).crc = crcOfMessage (some [0x61]) ∧
    (withWords .unwritten [0x162]).crc = crcOfMessage none ∧
    (withWords (.value 0xF25713) [0x162]).current.driven = true ∧
    (withWords .unwritten [0x162]).current.driven = true ∧
    crcAfter (step (withWords (.value 0xF25713) [0x162])) = some (.value 0xA11A2D) ∧
    crcAfter (step (withWords .unwritten [0x162])) = some .unwritten := by decide

theorem witness_InstancesShareNoState :
    stepInstance 1 [withWords .unwritten [], withWords (.value 0xE6E7F9) [0x200]] =
      some (.next [withWords .unwritten [], { crc := .value 0xB704CE, cycle := 1, driver := [], draws := 0 }]) ∧
    [withWords .unwritten [], withWords (.value 0xE6E7F9) [0x200]][1]? = some (withWords (.value 0xE6E7F9) [0x200]) ∧
    (withWords (.value 0xE6E7F9) [0x200]).written = true := ⟨rfl, rfl, rfl⟩

theorem witness_LinesAssembleToTheirWords :
    255 ≤ 255 ∧ (Asm.Command.initfeed 255).wf = true ∧ 255 < 256 := by decide

theorem witness_AssembledProgramsDecodeBack :
    [Asm.Line.crc24 [0x41, 0xFF], .wait 0, .rst (some (.feed 0x33))].all Asm.Line.wf = true ∧
    (([Asm.Line.crc24 [0x41, 0xFF], .wait 0, .rst (some (.feed 0x33))].flatMap Asm.Line.expand).map
      Asm.cycleOf)[2]? = some (.resetWith 0x133) ∧
    ([Asm.Line.crc24 [0x41, 0xFF], .wait 0, .rst (some (.feed 0x33))].flatMap Asm.Line.expand)[2]? =
      some (true, .feed 0x33) ∧
    ([Asm.Line.crc24 [0x41, 0xFF], .wait 0, .rst (some (.feed 0x33))].flatMap Asm.Line.expand)[1]? =
      some (false, .feed 0xFF) := by decide

theorem witness_BytesEnterMostSignificantBitFirst : 0 < 8 ∧ 7 < 8 ∧ 6 < 7 - 0 := by decide

theorem witness_AccumulatorStaysBelowTwoPow24 :
    25 ≤ 25 ∧ (0xFFFFFF : BitVec 25).toNat < 2 ^ 24 ∧ (15 < 16 ∨ 24 ≤ 15) ∧ (24 < 16 ∨ 24 ≤ 24) := by decide

theorem witness_NarrowDatapathNeverFeedsBack : 3 ≤ [(0x31 : Byte), 0x32, 0x33].length := by decide

theorem witness_EveryWidthFrom25GivesCrc24 : 25 ≤ 25 ∧ 7 < 8 ∧ 25 ≤ 25 := by decide

theorem witness_SignExtensionLeavesTheMaskedResult :
    25 ≤ 25 ∧ 25 ≤ 32 ∧ 32 ≤ 32 ∧ 32 < 33 ∧ 0x80 ≤ (0x80 : Byte).toNat := by decide

theorem witness_ChecksumIsAffine : [(0x31 : Byte), 0x32].length = [(0x80 : Byte), 0x01].length := by decide

theorem witness_SingleByteErrorsAreDetected : (0x38 : Byte) ≠ 0x39 := by decide

end Sys2Proof.Tests
end

section
/-!
PROOF. Bit vectors as polynomials over GF(2) (spec/00_scope.md R8): `toPoly` as a sum over the set bits, and the generator.
-/

namespace Sys2Proof.Claims
open Polynomial

/-- The positions of the set bits of a bit vector: the exponents of the terms of its reading (R8). -/
def setBits {n : Nat} (a : BitVec n) : Finset ℕ :=
  {k ∈ Finset.range n | a.getLsbD k}

theorem toPoly_eq_sum_setBits {n : Nat} (a : BitVec n) : toPoly a = ∑ k ∈ setBits a, X ^ k :=
  (Finset.sum_filter _ _).symm

theorem setBits_poly :
    setBits Config.poly = {24, 23, 18, 17, 14, 11, 10, 7, 6, 5, 4, 3, 1, 0} := by decide

/-- Settles O43: the terms of the generator are the powers of x at the fourteen set bits of `POLY`. -/
theorem polyConstantIsTheGenerator : Obligations.PolyConstantIsTheGenerator := by
  calc generator = ∑ k ∈ setBits Config.poly, X ^ k := toPoly_eq_sum_setBits Config.poly
    _ = ∑ k ∈ {24, 23, 18, 17, 14, 11, 10, 7, 6, 5, 4, 3, 1, 0}, X ^ k := by rw [setBits_poly]
    _ = _ := by simp [add_assoc]

end Sys2Proof.Claims
end

section
/-!
PROOF. What one cycle does, said once: the next `CRC` of every edge (spec/41_gen_commands.md R110), and the one next
state a step that does not stop can have.
-/

namespace Sys2Proof.Claims
open Sys2Proof.Machine

/-- Every command completes, and changes `CRC` alone, by its pseudocode (R111 to R114). -/
theorem exec_eq_next (i : Instr) (s : State) : exec i s = .next { s with crc := effect i s.crc } := by
  cases i with
  | nop => rfl
  | feed b =>
    change Host.Outcome.next (s.absorb b) = _
    cases hc : s.crc with
    | unwritten =>
      rw [absorb_unwritten b hc]
      exact congrArg _ (State.eq_of_fields hc rfl rfl rfl)
    | value v => rw [absorb_value b hc]; rfl
  | init => rfl
  | initfeed b => rfl

/-- Settles O13: each command's next state is the old one with another `CRC`, which for NOP is the old `CRC`. -/
theorem commandsChangeOnlyTheCrc : Obligations.CommandsChangeOnlyTheCrc := by
  intro i s t h
  rw [exec_eq_next] at h
  cases h
  exact ⟨rfl, rfl, rfl, by rintro rfl; rfl⟩

/-- What an edge makes of `CRC` (R110, R133, R141); `draws` is the number of the next free draw. -/
def crcAfterEdge (e : EdgeInput) (draws : Nat) (c : CrcReg) : CrcReg :=
  match e with
  | .reset => .value Config.initValue
  | .command w => effect (decode w) c
  | .undefined => .value (Config.freeCrc draws)

/-- Every edge completes, and changes `CRC` alone but for the draw an undefined input takes (R110, R141). -/
theorem clockEdge_eq_next (e : EdgeInput) (s : State) :
    clockEdge e s = .next { s with
      crc := crcAfterEdge e s.draws s.crc
      draws := if e ≠ .undefined then s.draws else s.draws + 1 } := by
  cases e with
  | reset => rfl
  | command w => exact exec_eq_next (decode w) s
  | undefined => rfl

/-- The state one cycle later (R25, R110), if the cycle does not stop the machine. -/
def successor (s : State) : State where
  crc := crcAfterEdge s.current.sample s.draws s.crc
  cycle := s.cycle + 1
  driver := s.driver.tail
  draws := if s.current.driven then s.draws else s.draws + 1

theorem step_eq_successor {s : State} (h : s.current.observe = true → s.crc ≠ .unwritten) :
    step s = .next (successor s) := by
  rw [step_of_allowed h, clockEdge_eq_next]
  simp [successor, DriverCycle.driven]

/-- All a step can do: fault on a read of an `UNWRITTEN` `crc_out` (R151), or reach the one successor. -/
theorem step_eq_fault_or_successor (s : State) :
    ((s.current.observe = true ∧ s.crc = .unwritten) ∧ step s = .fault .crcOutUnwritten) ∨
    (¬(s.current.observe = true ∧ s.crc = .unwritten) ∧ step s = .next (successor s)) := by
  by_cases hread : s.current.observe = true ∧ s.crc = .unwritten
  · exact .inl ⟨hread, step_of_unwritten_read hread.1 hread.2⟩
  · exact .inr ⟨hread, step_eq_successor fun ho hc => hread ⟨ho, hc⟩⟩

theorem eq_successor_of_step {s t : State} (h : step s = .next t) : t = successor s := by
  obtain ⟨-, hstep⟩ | ⟨-, hstep⟩ := step_eq_fault_or_successor s
  · rw [hstep] at h
    cases h
  · rw [hstep] at h
    cases h
    rfl

/-- Settles O14: the frame is that of the successor. -/
theorem everyStepAdvancesOneCycle : Obligations.EveryStepAdvancesOneCycle := by
  intro s t h
  cases eq_successor_of_step h
  exact ⟨rfl, rfl, rfl⟩

/-- Settles O19: of the two outcomes a step can have, the condition of the fault decides which it is. -/
theorem onlyAnUnwrittenReadStops : Obligations.OnlyAnUnwrittenReadStops := by
  intro s
  obtain ⟨hread, hstep⟩ | ⟨hno, hstep⟩ := step_eq_fault_or_successor s
  · rw [hstep]
    refine ⟨nofun, fun f => ⟨fun _ => hread, fun _ => ?_⟩, ⟨nofun, fun h => absurd hread h⟩⟩
    cases f
    rfl
  · rw [hstep]
    exact ⟨nofun, fun f => ⟨nofun, fun h => absurd h hno⟩, ⟨fun _ => hno, fun _ => ⟨_, rfl⟩⟩⟩

theorem written_iff (s : State) : s.written = true ↔ s.crc ≠ .unwritten := by
  simp [State.written]

theorem effect_ne_unwritten (i : Instr) {c : CrcReg} (h : c ≠ .unwritten) : effect i c ≠ .unwritten := by
  cases i with
  | nop => exact h
  | feed b =>
    cases c with
    | unwritten => exact absurd rfl h
    | value v => exact nofun
  | init => exact nofun
  | initfeed b => exact nofun

/-- No edge takes the value out of a written register (R153). -/
theorem crcAfterEdge_ne_unwritten (e : EdgeInput) (draws : Nat) {c : CrcReg} (h : c ≠ .unwritten) :
    crcAfterEdge e draws c ≠ .unwritten := by
  cases e with
  | reset => exact nofun
  | command w => exact effect_ne_unwritten (decode w) h
  | undefined => exact nofun

/-- Settles O25: a written register makes every observation an allowed one, and stays written at every edge. -/
theorem writtenCrcStaysWritten : Obligations.WrittenCrcStaysWritten := by
  intro s hw
  rw [written_iff] at hw
  exact ⟨successor s, step_eq_successor fun _ => hw,
    (written_iff _).2 (crcAfterEdge_ne_unwritten _ _ hw)⟩

end Sys2Proof.Claims
end

section
/-!
PROOF. The block refines the machine that remembers its message (spec/41_gen_commands.md R116,
spec/70_reset_and_hazards.md R154): the simulation of one edge, and of a run of cycles with defined inputs.
-/

namespace Sys2Proof.Claims
open Sys2Proof.Machine

/-! ## The checksum of a growing message -/

/-- The output mask leaves the accumulator of a message as it is (R21, R83). -/
theorem crc24_eq_absorbAll (m : List Byte) : crc24 m = absorbAll Config.initValue m := and_outMask _

theorem crc24_concat (m : List Byte) (b : Byte) : crc24 (m ++ [b]) = byteStep (crc24 m) b := by
  simp [crc24_eq_absorbAll]

/-- The commuting square of FEED: a byte absorbed by the register is a byte appended to the message. -/
theorem effect_feed_crcOfMessage (b : Byte) (m : Option (List Byte)) :
    effect (.feed b) (crcOfMessage m) = crcOfMessage (m.map (· ++ [b])) := by
  cases m with
  | none => rfl
  | some m => exact congrArg CrcReg.value (crc24_concat m b).symm

/-! ## One cycle -/

/-- The commuting square of an edge with defined inputs (R154). -/
theorem crcAfterEdge_crcOfMessage {c : DriverCycle} (draws : Nat) (m : Option (List Byte))
    (hd : c.driven = true) :
    crcAfterEdge c.sample draws (crcOfMessage m) = crcOfMessage (messageAfter m c) := by
  cases hs : c.sample with
  | reset =>
    have hm : messageAfter m c = some [] := by simp [messageAfter, DriverCycle.starts, hs]
    rw [hm]
    rfl
  | command w =>
    cases hw : decode w with
    | nop =>
      have hm : messageAfter m c = m := by
        simp [messageAfter, DriverCycle.starts, DriverCycle.continues, hs, hw]
      simp [crcAfterEdge, effect, hw, hm]
    | feed b =>
      have hm : messageAfter m c = m.map (· ++ [b]) := by
        simp [messageAfter, DriverCycle.starts, DriverCycle.continues, hs, hw]
      simp [crcAfterEdge, hw, hm, effect_feed_crcOfMessage]
    | init =>
      have hm : messageAfter m c = some [] := by simp [messageAfter, DriverCycle.starts, hs, hw]
      simp only [crcAfterEdge, hw, hm]
      rfl
    | initfeed b =>
      have hm : messageAfter m c = some ([] ++ [b]) := by
        simp [messageAfter, DriverCycle.starts, hs, hw]
      simp only [crcAfterEdge, hw, hm, crcOfMessage, crc24_concat]
      rfl
  | undefined => simp [DriverCycle.driven, hs] at hd

/-- Settles O30: the step's `CRC` is that of its edge, whose square commutes. -/
theorem crcIsThatOfTheMessageSoFar : Obligations.CrcIsThatOfTheMessageSoFar := by
  intro s t m hc hd hstep
  calc t.crc = crcAfterEdge s.current.sample s.draws s.crc := by rw [eq_successor_of_step hstep]; rfl
    _ = crcOfMessage (messageAfter m s.current) := by rw [hc, crcAfterEdge_crcOfMessage s.draws m hd]

/-! ## A run of cycles -/

/-- A cycle with defined inputs takes no draw: the step is `after` one cycle. -/
theorem step_eq_after {s : State} {c : DriverCycle} {rest : List DriverCycle} (m : Option (List Byte))
    (hc : s.crc = crcOfMessage m) (hdr : s.driver = c :: rest) (hd : c.driven = true)
    (ho : c.observe = true → s.crc ≠ .unwritten) :
    step s = .next (after s 1 rest (crcOfMessage (messageAfter m c))) := by
  have hcur : s.current = c := current_of_driver hdr
  rw [step_eq_successor (hcur ▸ ho)]
  congr 1
  apply State.eq_of_fields <;> simp [successor, after, hcur, hc, hdr, hd, crcAfterEdge_crcOfMessage]

theorem crcOfMessage_messageAfter_ne_unwritten {m : Option (List Byte)} (c : DriverCycle)
    (h : crcOfMessage m ≠ .unwritten) : crcOfMessage (messageAfter m c) ≠ .unwritten := by
  cases m with
  | none => exact absurd rfl h
  | some m => cases hs : c.starts <;> simp [messageAfter, hs, crcOfMessage]

theorem after_after (s : State) (m n : Nat) (r r' : List DriverCycle) (c c' : CrcReg) :
    after (after s m r c) n r' c' = after s (m + n) r' c' := by
  simp [after, Nat.add_assoc]

/-- The simulation over a run: cycles with defined inputs leave the `CRC` of the message they make. -/
theorem run_eq_after {s : State} {cs rest : List DriverCycle} (m : Option (List Byte))
    (hc : s.crc = crcOfMessage m) (hdr : s.driver = cs ++ rest) (hd : ∀ c ∈ cs, c.driven = true)
    (ho : ∀ c ∈ cs, c.observe = true → s.crc ≠ .unwritten) :
    runFor cs.length s = .next (after s cs.length rest (crcOfMessage (cs.foldl messageAfter m))) := by
  induction cs generalizing s m with
  | nil => exact congrArg Host.Outcome.next (State.eq_of_fields hc rfl hdr rfl)
  | cons c cs ih =>
    obtain ⟨hdc, hdcs⟩ := List.forall_mem_cons.1 hd
    obtain ⟨hoc, hocs⟩ := List.forall_mem_cons.1 ho
    have hstep := step_eq_after m hc hdr hdc hoc
    have hrun := ih (s := after s 1 (cs ++ rest) (crcOfMessage (messageAfter m c))) (messageAfter m c)
      rfl rfl hdcs fun d hmem hobs =>
        crcOfMessage_messageAfter_ne_unwritten c (hc ▸ hocs d hmem hobs)
    rw [after_after, Nat.add_comm] at hrun
    exact (run_succ_of_step cs.length hstep).trans hrun

/-! ## Stretches without a start, and starts -/

theorem driven_of_starts {c : DriverCycle} {m : List Byte} (h : c.starts = some m) : c.driven = true := by
  cases hs : c.sample with
  | undefined => simp [DriverCycle.starts, hs] at h
  | _ => simp [DriverCycle.driven, hs]

theorem messageAfter_of_starts {c : DriverCycle} {m0 : List Byte} (m : Option (List Byte))
    (h : c.starts = some m0) : messageAfter m c = some m0 := by
  simp [messageAfter, h]

/-- Only a command continues a message, and it is no start. -/
theorem driven_and_starts_of_continues {c : DriverCycle} {bs : List Byte} (h : c.continues = some bs) :
    c.driven = true ∧ c.starts = none := by
  cases hs : c.sample with
  | command w =>
    refine ⟨by simp [DriverCycle.driven, hs], ?_⟩
    cases hw : decode w with
    | nop => simp [DriverCycle.starts, hs, hw]
    | feed b => simp [DriverCycle.starts, hs, hw]
    | init => simp [DriverCycle.continues, hs, hw] at h
    | initfeed b => simp [DriverCycle.continues, hs, hw] at h
  | _ => simp [DriverCycle.continues, hs] at h

theorem messageAfter_of_continues {c : DriverCycle} {bs : List Byte} (m : Option (List Byte))
    (h : c.continues = some bs) : messageAfter m c = m.map (· ++ bs) := by
  simp [messageAfter, (driven_and_starts_of_continues h).2, h]

theorem carried_cons_eq_some {c : DriverCycle} {cs : List DriverCycle} {m : List Byte}
    (h : carried (c :: cs) = some m) :
    ∃ b bs, c.continues = some b ∧ carried cs = some bs ∧ m = b ++ bs := by
  unfold carried at h
  split at h
  · rename_i b bs hb hbs
    exact ⟨b, bs, hb, hbs, (Option.some.inj h).symm⟩
  · cases h

theorem driven_of_carried {cs : List DriverCycle} {m : List Byte} (h : carried cs = some m) :
    ∀ c ∈ cs, c.driven = true := by
  induction cs generalizing m with
  | nil => exact nofun
  | cons c cs ih =>
    obtain ⟨b, bs, hb, hbs, -⟩ := carried_cons_eq_some h
    exact List.forall_mem_cons.2 ⟨(driven_and_starts_of_continues hb).1, ih hbs⟩

/-- A stretch of NOP and FEED cycles appends the bytes it carries (R43, R116). -/
theorem foldl_messageAfter_of_carried {cs : List DriverCycle} {bs : List Byte} (m : Option (List Byte))
    (h : carried cs = some bs) : cs.foldl messageAfter m = m.map (· ++ bs) := by
  induction cs generalizing m bs with
  | nil =>
    cases h
    simp
  | cons c cs ih =>
    obtain ⟨b, bs, hb, hbs, rfl⟩ := carried_cons_eq_some h
    simp [messageAfter_of_continues m hb, ih _ hbs, Function.comp_def]

/-- R23: NOP and FEED cycles leave an `UNWRITTEN` register `UNWRITTEN`. -/
theorem run_carried_of_unwritten {s : State} {cs rest : List DriverCycle} {m : List Byte}
    (hc : s.crc = .unwritten) (hm : carried cs = some m) (ho : ∀ c ∈ cs, c.observe = false)
    (hdr : s.driver = cs ++ rest) :
    runFor cs.length s = .next (after s cs.length rest .unwritten) := by
  have hrun := run_eq_after none hc hdr (driven_of_carried hm) fun c hmem => by simp [ho c hmem]
  rwa [foldl_messageAfter_of_carried none hm] at hrun

/-- R23, R154: the first start after NOP and FEED cycles gives the register the `CRC` of the message it starts. -/
theorem run_carried_start_of_unwritten {s : State} {cs rest : List DriverCycle} {c : DriverCycle}
    {m m0 : List Byte} (hc : s.crc = .unwritten) (hm : carried cs = some m)
    (ho : ∀ d ∈ cs, d.observe = false) (hoc : c.observe = false) (hstart : c.starts = some m0)
    (hdr : s.driver = cs ++ c :: rest) :
    runFor (cs.length + 1) s = .next (after s (cs.length + 1) rest (.value (crc24 m0))) := by
  have hdriven : ∀ d ∈ cs ++ [c], d.driven = true :=
    List.forall_mem_append.2 ⟨driven_of_carried hm, List.forall_mem_singleton.2 (driven_of_starts hstart)⟩
  have hobs : ∀ d ∈ cs ++ [c], d.observe = false :=
    List.forall_mem_append.2 ⟨ho, List.forall_mem_singleton.2 hoc⟩
  have hrun := run_eq_after (rest := rest) none hc (by simp [hdr]) hdriven fun d hmem => by simp [hobs d hmem]
  rwa [List.length_append, List.foldl_append, List.foldl_cons, List.foldl_nil,
    messageAfter_of_starts _ hstart] at hrun

/-- Settles O18: both stretches are runs of the message machine from no message, and the read faults by R151. -/
theorem crcIsUnwrittenUntilAStart : Obligations.CrcIsUnwrittenUntilAStart :=
  ⟨powerUp_crc,
    fun _ _ _ _ hc hm ho hdr => run_carried_of_unwritten hc hm ho hdr,
    fun _ _ _ _ _ _ hc hm ho hoc hstart hdr => run_carried_start_of_unwritten hc hm ho hoc hstart hdr,
    fun _ hc => ⟨crcOut_unwritten hc, fun ho => step_of_unwritten_read ho hc⟩⟩

end Sys2Proof.Claims
end

section
/-!
PROOF. An accumulator of 25 bits or more is the 24-bit register, zero-extended (spec/10_state.md R21,
spec/40_poly_feedback_core.md R88): stage by stage, byte by byte, and for a whole message.
-/

namespace Sys2Proof.Machine

/-- The feedback clears the tap, because `POLY[24] = 1` (R21). -/
theorem feedbackTap_feedback (t : Bits25) : feedbackTap (feedback t) = false := by
  have hpoly : Config.poly.getLsbD 24 = true := by decide
  cases ht : feedbackTap t with
  | false => simp only [feedback, ht, Bool.false_eq_true, if_false]
  | true =>
    have ht24 : t.getLsbD 24 = true := ht
    simp only [feedback, ht, if_true]
    simp only [feedbackTap, BitVec.getLsbD_xor, ht24, hpoly, Bool.xor_self]

/-- A 25-bit value whose tap is clear loses nothing in 24 bits. -/
theorem setWidth_setWidth_of_tap_clear (W : Nat) {t : Bits25} (h : feedbackTap t = false) :
    (t.setWidth 24).setWidth W = t.setWidth W := by
  have h24 : t.getLsbD 24 = false := h
  apply BitVec.eq_of_getLsbD_eq
  intro k _
  obtain hlt | rfl | hgt := Nat.lt_trichotomy k 24
  · simp only [BitVec.getLsbD_setWidth, hlt, decide_true, Bool.true_and]
  · simp only [BitVec.getLsbD_setWidth, h24, Bool.and_false]
  · simp only [BitVec.getLsbD_setWidth, BitVec.getLsbD_of_ge t k hgt, Bool.and_false]

/-- A left shift that fits in v bits may be done at any width. -/
theorem setWidth_shiftLeft_of_fits {n v i : Nat} (W : Nat) (x : BitVec n) (h : n + i ≤ v) :
    (x.setWidth v <<< i).setWidth W = x.setWidth W <<< i := by
  apply BitVec.eq_of_getLsbD_eq
  intro k hk
  simp only [BitVec.getLsbD_shiftLeft, BitVec.getLsbD_setWidth]
  by_cases hkv : k < v
  · have hkv' : k - i < v := by omega
    have hkW : k - i < W := by omega
    simp [hk, hkv, hkv', hkW]
  · have hbit : x.getLsbD (k - i) = false := BitVec.getLsbD_of_ge x _ (by omega)
    simp [hbit]

/-- The source's test `crc & 0x1000000` reads the tap (R22, R88). -/
theorem setWidth_and_eq_zero_iff {W : Nat} (hW : 25 ≤ W) (t : Bits25) :
    t.setWidth W &&& BitVec.ofNat W 0x1000000 = 0 ↔ feedbackTap t = false := by
  have hmask : BitVec.ofNat W 0x1000000 = BitVec.twoPow W 24 := by
    apply BitVec.eq_of_toNat_eq
    rw [BitVec.toNat_twoPow, BitVec.toNat_ofNat]
  have hbit : (t.setWidth W).getLsbD 24 = feedbackTap t := by
    have h24 : 24 < W := hW
    simp only [BitVec.getLsbD_setWidth, h24, decide_true, Bool.true_and, feedbackTap]
  have hne : BitVec.twoPow W 24 ≠ 0#W := fun h => by
    have hself : (BitVec.twoPow W 24).getLsbD 24 = (0#W).getLsbD 24 := by rw [h]
    have h24 : 24 < W := hW
    simp [h24] at hself
  rw [hmask, BitVec.and_twoPow, hbit]
  cases feedbackTap t <;> simp [hne]

/-- R88: step 2b in a wide accumulator is the stage of the 25-bit datapath. -/
theorem accBitStep_setWidth {W : Nat} (hW : 25 ≤ W) (a : Bits24) :
    accBitStep (a.setWidth W) = (bitStep a).setWidth W := by
  have hpoly : BitVec.ofNat W 0x1864CFB = Config.poly.setWidth W :=
    (BitVec.setWidth_ofNat_of_le_of_lt hW (by decide)).symm
  have hshift : a.setWidth W <<< 1 = (shifted a).setWidth W :=
    (setWidth_shiftLeft_of_fits W a (Nat.le_refl 25)).symm
  rw [bitStep, setWidth_setWidth_of_tap_clear W (feedbackTap_feedback _), accBitStep, hshift, hpoly]
  simp only [setWidth_and_eq_zero_iff hW, feedback]
  cases feedbackTap (shifted a) <;> simp [BitVec.setWidth_xor]

theorem accBitSteps_setWidth {W : Nat} (hW : 25 ≤ W) (n : Nat) (a : Bits24) :
    accBitSteps n (a.setWidth W) = (bitSteps n a).setWidth W := by
  induction n generalizing a with
  | zero => rfl
  | succ n ih => rw [accBitSteps_succ, accBitStep_setWidth hW, ih, bitSteps_succ]

/-- The aligned byte touches bits 23 to 16 only (R21, R63). -/
theorem getLsbD_alignByte_of_outside (b : Byte) {k : Nat} (hk : k < 16 ∨ 24 ≤ k) :
    (alignByte b).getLsbD k = false := by
  obtain hlo | hhi := hk
  · simp [alignByte, hlo]
  · exact BitVec.getLsbD_of_ge _ _ hhi

/-- `b << 16` is the 24-bit datapath's operand at every width (R63). -/
theorem laneUnsigned_eq_setWidth (W : Nat) (b : Byte) : laneUnsigned W b = (alignByte b).setWidth W :=
  (setWidth_shiftLeft_of_fits W b (Nat.le_refl 24)).symm

theorem accByteStep_setWidth {W : Nat} (hW : 25 ≤ W) (a : Bits24) (b : Byte) :
    accByteStep (laneUnsigned W) (a.setWidth W) b = (byteStep a b).setWidth W := by
  rw [accByteStep, laneUnsigned_eq_setWidth, ← BitVec.setWidth_xor, accBitSteps_setWidth hW, byteStep]

/-- R88: the wide accumulator of a message, unmasked, is the 24-bit one. -/
theorem foldl_accByteStep_setWidth {W : Nat} (hW : 25 ≤ W) (a : Bits24) (m : List Byte) :
    m.foldl (accByteStep (laneUnsigned W)) (a.setWidth W) = (absorbAll a m).setWidth W := by
  induction m generalizing a with
  | nil => rfl
  | cons b m ih => rw [List.foldl_cons, accByteStep_setWidth hW, ih, absorbAll_cons]

theorem accumulated_eq_setWidth {W : Nat} (hW : 25 ≤ W) (m : List Byte) :
    accumulated (laneUnsigned W) m = (absorbAll Config.initValue m).setWidth W := by
  have hinit : BitVec.ofNat W 0xB704CE = Config.initValue.setWidth W :=
    (BitVec.setWidth_ofNat_of_le_of_lt (Nat.le_of_succ_le hW) (by decide)).symm
  rw [accumulated, hinit, foldl_accByteStep_setWidth hW]

/-- The source's mask changes nothing in a zero-extended register (R21). -/
theorem setWidth_and_mask {W : Nat} (hW : 25 ≤ W) (a : Bits24) :
    a.setWidth W &&& BitVec.ofNat W 0xFFFFFF = a.setWidth W := by
  have hmask : BitVec.ofNat W 0xFFFFFF = Config.outMask.setWidth W :=
    (BitVec.setWidth_ofNat_of_le_of_lt (Nat.le_of_succ_le hW) (by decide)).symm
  rw [hmask, ← BitVec.setWidth_and, and_outMask]

theorem toNat_setWidth_lt (W : Nat) (a : Bits24) : (a.setWidth W).toNat < 2 ^ 24 := by
  rw [BitVec.toNat_setWidth]
  exact (Nat.mod_le _ _).trans_lt a.isLt

/-- A value below 2^24 is a zero-extended register. -/
theorem eq_setWidth_of_lt {W : Nat} {a : BitVec W} (h : a.toNat < 2 ^ 24) :
    a = (a.setWidth 24).setWidth W := by
  apply BitVec.eq_of_toNat_eq
  rw [BitVec.toNat_setWidth, BitVec.toNat_setWidth, Nat.mod_eq_of_lt h, Nat.mod_eq_of_lt a.isLt]

/-- Settles O39: a wide accumulator below 2^24 is a zero-extended register, and its stages are the register's. -/
theorem accumulatorStaysBelowTwoPow24 : Obligations.AccumulatorStaysBelowTwoPow24 := by
  intro W hW
  refine ⟨fun a ha => ?_, fun b k hk => ?_, fun m => ⟨?_, ?_⟩⟩
  · rw [eq_setWidth_of_lt ha, accBitStep_setWidth hW]
    exact toNat_setWidth_lt W _
  · rw [laneUnsigned_eq_setWidth, BitVec.getLsbD_setWidth, getLsbD_alignByte_of_outside b hk, Bool.and_false]
  · rw [accumulated_eq_setWidth hW]
    exact toNat_setWidth_lt W _
  · rw [maskedResult, accumulated_eq_setWidth hW, setWidth_and_mask hW]

end Sys2Proof.Machine
end

section
/-!
PROOF. The byte stage by stage (spec/20_memory.md R44): the stages are linear over XOR, so the flip of one bit of the
byte travels by itself, one place up per stage, until it stands at the feedback tap.
-/

namespace Sys2Proof.Machine
open Sys2Proof.Claims

/-! ## The stages are linear over XOR -/

theorem shifted_xor (a d : Bits24) : shifted (a ^^^ d) = shifted a ^^^ shifted d := by
  simp only [shifted, BitVec.setWidth_xor, BitVec.shiftLeft_xor_distrib]

theorem feedbackTap_xor (t u : Bits25) : feedbackTap (t ^^^ u) = (feedbackTap t ^^ feedbackTap u) :=
  BitVec.getLsbD_xor

/-- The feedback pattern in an XOR of two values is that of the one tap that is set, or cancels where both are. -/
theorem feedback_xor (t u : Bits25) : feedback (t ^^^ u) = feedback t ^^^ feedback u := by
  cases ht : feedbackTap t <;> cases hu : feedbackTap u <;>
    simp only [feedback, feedbackTap_xor, ht, hu, Bool.xor_true, Bool.xor_false, Bool.not_true, Bool.not_false,
      Bool.false_eq_true, if_true, if_false]
  · ac_rfl
  · ac_rfl
  · calc t ^^^ u = t ^^^ u ^^^ (Config.poly ^^^ Config.poly) := by rw [BitVec.xor_self, BitVec.xor_zero]
      _ = t ^^^ Config.poly ^^^ (u ^^^ Config.poly) := by ac_rfl

theorem bitStep_xor (a d : Bits24) : bitStep (a ^^^ d) = bitStep a ^^^ bitStep d := by
  simp only [bitStep, shifted_xor, feedback_xor, BitVec.setWidth_xor]

theorem bitSteps_xor (n : Nat) (a d : Bits24) : bitSteps n (a ^^^ d) = bitSteps n a ^^^ bitSteps n d := by
  induction n generalizing a d with
  | zero => rfl
  | succ n ih => simp only [bitSteps_succ, bitStep_xor, ih]

/-! ## A single bit on its way to the tap -/

theorem feedbackTap_shifted (a : Bits24) : feedbackTap (shifted a) = a.getLsbD 23 := by
  simp [feedbackTap, shifted]

/-- With bit 23 clear, a stage is the bare shift (R80). -/
theorem bitStep_of_clear {a : Bits24} (h : a.getLsbD 23 = false) : bitStep a = a <<< 1 := by
  have htap : feedbackTap (shifted a) = false := (feedbackTap_shifted a).trans h
  simp only [bitStep, feedback, htap, Bool.false_eq_true, if_false]
  exact (setWidth_shiftLeft_of_fits 24 a (Nat.le_refl 25)).trans (by rw [BitVec.setWidth_eq])

theorem bitStep_twoPow {i : Nat} (hi : i < 23) : bitStep (BitVec.twoPow 24 i) = BitVec.twoPow 24 (i + 1) := by
  have hclear : (BitVec.twoPow 24 i).getLsbD 23 = false := by
    simp only [BitVec.getLsbD_twoPow, hi.ne, decide_false, Bool.and_false]
  rw [bitStep_of_clear hclear, BitVec.twoPow, BitVec.twoPow, BitVec.shiftLeft_add]

/-- A single bit moves one place up per stage, as long as it has not left by the tap. -/
theorem bitSteps_twoPow {i n : Nat} (h : i + n ≤ 23) :
    bitSteps n (BitVec.twoPow 24 i) = BitVec.twoPow 24 (i + n) := by
  induction n generalizing i with
  | zero => rfl
  | succ n ih =>
    have hi : i < 23 := by omega
    have hrest : i + 1 + n ≤ 23 := by omega
    rw [bitSteps_succ, bitStep_twoPow hi, ih hrest, Nat.add_right_comm, Nat.add_assoc]

/-! ## The byte in its lane -/

theorem alignByte_xor (b c : Byte) : alignByte (b ^^^ c) = alignByte b ^^^ alignByte c := by
  simp only [alignByte, BitVec.setWidth_xor, BitVec.shiftLeft_xor_distrib]

/-- Bit k of the byte enters at bit 16 + k (R63). -/
theorem alignByte_twoPow {k : Nat} (hk : k < 8) : alignByte (BitVec.twoPow 8 k) = BitVec.twoPow 24 (16 + k) := by
  have hwide : (BitVec.twoPow 8 k).setWidth 24 = BitVec.twoPow 24 k :=
    setWidth_shiftLeft_of_fits 24 1#1 (by omega)
  rw [alignByte, hwide, BitVec.twoPow, ← BitVec.shiftLeft_add, Nat.add_comm k, BitVec.twoPow]

/-- Flipping bit k of the byte is felt at the tap in stage 8 - k, and in no stage before. -/
theorem tapOfStage_flip (s : Bits24) (b : Byte) {k j : Nat} (h : k + j ≤ 7) :
    tapOfStage s (b ^^^ BitVec.twoPow 8 k) j = (tapOfStage s b j ^^ decide (k + j = 7)) := by
  have hflip : bitSteps j (s ^^^ alignByte (b ^^^ BitVec.twoPow 8 k)) =
      bitSteps j (s ^^^ alignByte b) ^^^ BitVec.twoPow 24 (16 + k + j) := by
    rw [alignByte_xor, alignByte_twoPow (by omega), ← BitVec.xor_assoc, bitSteps_xor, bitSteps_twoPow (by omega)]
  have hfits : 16 + k + j < 24 := by omega
  have hplace : 16 + k + j = 23 ↔ k + j = 7 := by omega
  simp only [tapOfStage, hflip, feedbackTap_shifted, BitVec.getLsbD_xor, BitVec.getLsbD_twoPow, hfits, hplace,
    decide_true, Bool.true_and]

/-- The statement's `1 <<< k` is a number, cast to a byte: the byte with bit k alone. -/
theorem natCast_one_shiftLeft (k : Nat) : ((1 <<< k : Nat) : Byte) = BitVec.twoPow 8 k := by
  apply BitVec.eq_of_toNat_eq
  simp [BitVec.toNat_twoPow, Nat.shiftLeft_eq]

/-- Settles O38: the flipped bit, alone in the lane, stands at the tap in stage 8 - k and below it in the stages before. -/
theorem bytesEnterMostSignificantBitFirst : Obligations.BytesEnterMostSignificantBitFirst := by
  intro s b k hk
  rw [natCast_one_shiftLeft]
  refine ⟨fun j hj => ?_, ?_⟩
  · have hbefore : k + j < 7 := by omega
    rw [tapOfStage_flip s b hbefore.le, decide_eq_false hbefore.ne, Bool.xor_false]
  · have hat : k + (7 - k) = 7 := by omega
    rw [tapOfStage_flip s b hat.le, decide_eq_true hat, Bool.xor_true]

end Sys2Proof.Machine
end

section
/-!
PROOF. What a cycle reads and whom it touches (spec/20_memory.md R48 to R52): the output port, the one driver cycle a
step samples, and the one instance it belongs to.
-/

namespace Sys2Proof.Claims
open Sys2Proof.Machine

/-! ## The output port -/

theorem crcOut_eq_ok_iff (s : State) (v : Bits24) : s.crcOut = .ok v ↔ s.crc = .value v := by
  refine ⟨fun h => ?_, crcOut_value⟩
  cases hc : s.crc with
  | unwritten => simp [crcOut_unwritten hc] at h
  | value u =>
    rw [crcOut_value hc] at h
    cases h
    rfl

/-- Settles O20: a read that is allowed leaves the edge, and the edge does not see whether the output was sampled. -/
theorem readingCrcOutHasNoSideEffect : Obligations.ReadingCrcOutHasNoSideEffect := by
  refine ⟨crcOut_eq_ok_iff, fun s c rest hw => ?_⟩
  have hedge (d : DriverCycle) : step { s with driver := d :: rest } =
      clockEdge d.sample { s with cycle := s.cycle + 1, driver := rest } :=
    step_of_allowed fun _ => hw
  rw [hedge, hedge]
  rfl

theorem crcOutOn_of_crcOut {s : State} {v : Bits24} (n : Nat) (h : s.crcOut = .ok v) :
    s.crcOutOn n = .ok (v.setWidth n) := by
  simp [State.crcOutOn, h]

/-- Settles O21: the wider path carries the zero-extension of `CRC`. -/
theorem widerPathHasZeroUpperBits : Obligations.WiderPathHasZeroUpperBits := by
  intro s v n hn h
  refine ⟨v.setWidth n, crcOutOn_of_crcOut n h, fun k hk => ?_, fun k hk => ?_⟩
  · have hkn : k < n := hk.trans hn
    simp [hkn]
  · rw [BitVec.getLsbD_setWidth, BitVec.getLsbD_of_ge v k hk, Bool.and_false]

/-! ## One driver cycle -/

theorem allowed_of_step {s t : State} (h : step s = .next t) :
    s.current.observe = true → s.crc ≠ .unwritten := by
  intro ho hc
  rw [step_of_unwritten_read ho hc] at h
  cases h

/-- Settles O27: the successor's `CRC` and draws are functions of the three fields the two states share. -/
theorem onlyTheCurrentCycleIsSampled : Obligations.OnlyTheCurrentCycleIsSampled := by
  intro s s' t hcrc hcur hdraws hstep
  have hallowed : s'.current.observe = true → s'.crc ≠ .unwritten := by
    rw [← hcur, ← hcrc]
    exact allowed_of_step hstep
  refine ⟨successor s', step_eq_successor hallowed, ?_, ?_⟩ <;>
    simp only [eq_successor_of_step hstep, successor, hcrc, hcur, hdraws]

/-! ## One instance -/

/-- A cycle of instance k completes exactly where its own step does, and replaces entry k alone. -/
theorem stepInstance_eq_next_iff {k : Nat} {sys sys' : List State} :
    stepInstance k sys = some (.next sys') ↔
      ∃ s t, sys[k]? = some s ∧ step s = .next t ∧ sys' = sys.set k t := by
  cases hk : sys[k]? with
  | none => simp [stepInstance, hk]
  | some s => cases hs : step s <;> simp [stepInstance, hk, hs, eq_comm]

/-- Settles O31: the system's step is an update of one list entry; a written instance's step completes by O25. -/
theorem instancesShareNoState : Obligations.InstancesShareNoState := by
  refine ⟨fun sys sys' k h => ?_, fun sys k s hk hw => ?_⟩
  · obtain ⟨s, t, hk, hstep, rfl⟩ := stepInstance_eq_next_iff.1 h
    have hlt : k < sys.length := (List.getElem?_eq_some_iff.1 hk).1
    exact ⟨s, t, hk, hstep, List.getElem?_set_self hlt, List.length_set,
      fun j hj => List.getElem?_set_ne hj.symm⟩
  · obtain ⟨t, hstep, -⟩ := writtenCrcStaysWritten s hw
    exact ⟨sys.set k t, stepInstance_eq_next_iff.2 ⟨s, t, hk, hstep, rfl⟩⟩

end Sys2Proof.Claims
end

section
/-!
PROOF. The command encoding (spec/30_encoding.md R60 to R66): a word is its three fields, so what the decoder and the
encoder do is said once on the word of three ports.
-/

namespace Sys2Proof.Claims
open Sys2Proof.Machine

/-! ## The fields of a word -/

@[simp] theorem fieldI_commandWord (i v : Bool) (d : Byte) : fieldI (commandWord i v d) = i := by
  rw [fieldI, commandWord, BitVec.getLsbD_append]
  cases i <;> cases v <;> rfl

@[simp] theorem fieldV_commandWord (i v : Bool) (d : Byte) : fieldV (commandWord i v d) = v := by
  rw [fieldV, commandWord, BitVec.getLsbD_append]
  cases i <;> cases v <;> rfl

@[simp] theorem fieldD_commandWord (i v : Bool) (d : Byte) : fieldD (commandWord i v d) = d := by
  rw [fieldD, commandWord, BitVec.extractLsb'_append_eq_of_add_le (Nat.le_refl 8), BitVec.extractLsb'_eq_self]

/-- Every word is formed by three ports (R60). -/
theorem exists_eq_commandWord (w : CommandWord) : ∃ i v d, w = commandWord i v d :=
  ⟨fieldI w, fieldV w, fieldD w, (commandWord_fields w).symm⟩

theorem eq_of_fields {w w' : CommandWord} (hI : fieldI w = fieldI w') (hV : fieldV w = fieldV w')
    (hD : fieldD w = fieldD w') : w = w' := by
  rw [← commandWord_fields w, hI, hV, hD, commandWord_fields]

theorem toNat_commandWord (i v : Bool) (d : Byte) :
    (commandWord i v d).toNat = (if i then 512 else 0) + (if v then 256 else 0) + d.toNat := by
  rw [commandWord, BitVec.toNat_append, BitVec.toNat_append, ← Nat.shiftLeft_add_eq_or_of_lt d.isLt,
    ← Nat.shiftLeft_add_eq_or_of_lt (BitVec.isLt _)]
  cases i <;> cases v <;> rfl

/-- Settles O1: the word of the ports has their fields, and a word is determined by its own. -/
theorem portsFormTheCommandWord : Obligations.PortsFormTheCommandWord :=
  ⟨fun i v d => ⟨toNat_commandWord i v d, fieldI_commandWord i v d, fieldV_commandWord i v d,
    fieldD_commandWord i v d⟩, commandWord_fields⟩

theorem fieldI_or (w w' : CommandWord) : fieldI (w ||| w') = (fieldI w || fieldI w') := BitVec.getLsbD_or
theorem fieldV_or (w w' : CommandWord) : fieldV (w ||| w') = (fieldV w || fieldV w') := BitVec.getLsbD_or
theorem fieldD_or (w w' : CommandWord) : fieldD (w ||| w') = fieldD w ||| fieldD w' := BitVec.extractLsb'_or

theorem fieldI_and (w w' : CommandWord) : fieldI (w &&& w') = (fieldI w && fieldI w') := BitVec.getLsbD_and
theorem fieldV_and (w w' : CommandWord) : fieldV (w &&& w') = (fieldV w && fieldV w') := BitVec.getLsbD_and
theorem fieldD_and (w w' : CommandWord) : fieldD (w &&& w') = fieldD w &&& fieldD w' := BitVec.extractLsb'_and

/-- The data byte alone sets neither `init` nor `data_valid`: OR with it fills in the data field of a row's word. -/
theorem commandWord_or_setWidth (i v : Bool) (b : Byte) :
    commandWord i v 0 ||| b.setWidth 10 = commandWord i v b := by
  have hI : fieldI (b.setWidth 10) = false := by simp [fieldI]
  have hV : fieldV (b.setWidth 10) = false := by simp [fieldV]
  have hD : fieldD (b.setWidth 10) = b := by simp [fieldD, BitVec.extractLsb'_setWidth_of_le]
  exact eq_of_fields (by simp [fieldI_or, hI]) (by simp [fieldV_or, hV]) (by simp [fieldD_or, hD])

/-- The mask of R62 clears the data field and keeps `init` and `data_valid`. -/
theorem commandWord_and_mask (i v : Bool) (d : Byte) : commandWord i v d &&& 0x300 = commandWord i v 0 := by
  have hI : fieldI 0x300#10 = true := by decide
  have hV : fieldV 0x300#10 = true := by decide
  have hD : fieldD 0x300#10 = 0 := by decide
  exact eq_of_fields (by simp [fieldI_and, hI]) (by simp [fieldV_and, hV]) (by simp [fieldD_and, hD])

/-! ## The decoder and the encoder on the four rows -/

@[simp] theorem decode_nop (d : Byte) : decode (commandWord false false d) = .nop := by simp [decode]
@[simp] theorem decode_feed (d : Byte) : decode (commandWord false true d) = .feed d := by simp [decode]
@[simp] theorem decode_init (d : Byte) : decode (commandWord true false d) = .init := by simp [decode]
@[simp] theorem decode_initfeed (d : Byte) : decode (commandWord true true d) = .initfeed d := by simp [decode]

theorem encode_nop : encode .nop = commandWord false false 0 := by decide
theorem encode_feed (b : Byte) : encode (.feed b) = commandWord false true b := commandWord_or_setWidth false true b
theorem encode_init : encode .init = commandWord true false 0 := by decide
theorem encode_initfeed (b : Byte) : encode (.initfeed b) = commandWord true true b :=
  commandWord_or_setWidth true true b

@[simp] theorem decode_encode (i : Instr) : decode (encode i) = i := by
  cases i with
  | nop => rw [encode_nop, decode_nop]
  | feed b => rw [encode_feed, decode_feed]
  | init => rw [encode_init, decode_init]
  | initfeed b => rw [encode_initfeed, decode_initfeed]

/-- The encoder writes the don't-care bits of NOP and INIT as 0 and keeps every bit of FEED and INITFEED (R64, R67). -/
theorem encode_decode (w : CommandWord) : encode (decode w) = if fieldV w then w else w &&& 0x300 := by
  obtain ⟨i, v, d, rfl⟩ := exists_eq_commandWord w
  rw [fieldV_commandWord, commandWord_and_mask]
  cases i <;> cases v
  · exact (congrArg encode (decode_nop d)).trans encode_nop
  · exact (congrArg encode (decode_feed d)).trans (encode_feed d)
  · exact (congrArg encode (decode_init d)).trans encode_init
  · exact (congrArg encode (decode_initfeed d)).trans (encode_initfeed d)

theorem decodeNat_toNat (w : CommandWord) : decodeNat w.toNat = .ok (decode w) := by
  rw [decodeNat, if_pos w.isLt, BitVec.ofNat_toNat, BitVec.setWidth_eq]

theorem decodeNat_of_wide {n : Nat} (h : 1024 ≤ n) : decodeNat n = .error .widerThanTenBits :=
  if_neg (Nat.not_lt.2 h)

/-- A table number of ten bits or more holds the whole word. -/
theorem decodeTableWord_toNat {nbits : Nat} (h : 10 ≤ nbits) (w : CommandWord) :
    decodeTableWord nbits w.toNat = some (decode w) := by
  have hfits : w.toNat < 2 ^ nbits := w.isLt.trans_le (Nat.pow_le_pow_right Nat.two_pos h)
  rw [decodeTableWord, Nat.mod_eq_of_lt hfits, decodeNat_toNat]

/-- Settles O4: the decoder inverts the encoder on each row, and a table number of a word is the word. -/
theorem decodeInvertsEncode : Obligations.DecodeInvertsEncode := by
  refine ⟨fun i _ => ⟨decode_encode i, fun nbits h => ?_⟩, encode_decode, fun n => decodeNat_of_wide⟩
  rw [decodeTableWord_toNat h, decode_encode]

/-- Settles O3: each word, written out, is that of its three fields. -/
theorem writtenOutWordsDecode : Obligations.WrittenOutWordsDecode :=
  ⟨decode_nop 0x00, decode_nop 0xFF, decode_feed 0x31, decode_init 0x00, decode_init 0xA5, decode_initfeed 0x32⟩

/-! ## The rows of R62 -/

/-- Each command's word has its own row's bits 9 and 8. -/
theorem opcodeBits (i : Instr) : Laws.OpcodeBits.Statement i := by
  cases i with
  | nop => exact Laws.OpcodeBits.nop
  | feed b => exact Laws.OpcodeBits.feed b
  | init => exact Laws.OpcodeBits.init
  | initfeed b => exact Laws.OpcodeBits.initfeed b

theorem encode_decode_and_mask (w : CommandWord) : encode (decode w) &&& 0x300 = w &&& 0x300 := by
  rw [encode_decode]
  split
  · rfl
  · rw [BitVec.and_assoc, BitVec.and_self]

/-- R62: a word matches a row exactly where it decodes to the row's command. -/
theorem match_iff_mnemonic (w : CommandWord) {r : String × CommandWord × CommandWord} (hr : r ∈ opcodeRows) :
    w &&& r.2.2 = r.2.1 ↔ (decode w).mnemonic = r.1 := by
  have hmask : ∀ r ∈ opcodeRows, r.2.2 = 0x300 := by decide
  rw [hmask r hr, opcodeBits (decode w) r hr, encode_decode_and_mask]

/-- The rows' mnemonics are those of the commands, each once. -/
theorem existsUnique_row (i : Instr) : ∃! r, r ∈ opcodeRows ∧ i.mnemonic = r.1 := by
  have hdistinct : ∀ r ∈ opcodeRows, ∀ r' ∈ opcodeRows, r.1 = r'.1 → r = r' := by decide
  have hrow : ∃ r ∈ opcodeRows, i.mnemonic = r.1 := by
    cases i with
    | nop => exact ⟨("NOP", 0x000, 0x300), by decide, rfl⟩
    | feed b => exact ⟨("FEED", 0x100, 0x300), by decide, rfl⟩
    | init => exact ⟨("INIT", 0x200, 0x300), by decide, rfl⟩
    | initfeed b => exact ⟨("INITFEED", 0x300, 0x300), by decide, rfl⟩
  obtain ⟨r, hr, hi⟩ := hrow
  exact ⟨r, ⟨hr, hi⟩, fun r' ⟨hr', hi'⟩ => hdistinct r' hr' r hr (hi'.symm.trans hi)⟩

/-- The mnemonic is decided by `init` and `data_valid` (R62). -/
theorem mnemonic_decode_commandWord (i v : Bool) (d : Byte) :
    (decode (commandWord i v d)).mnemonic = (decode (commandWord i v 0)).mnemonic := by
  cases i <;> cases v <;> simp [Instr.mnemonic]

/-- Of the 256 words with given `init` and `data_valid`, all or none have a given mnemonic. -/
theorem count_mnemonic_block (i v : Bool) (name : String) :
    Nat.count (fun k => (decode (BitVec.ofNat 10 ((commandWord i v 0).toNat + k))).mnemonic = name) 256 =
      if (decode (commandWord i v 0)).mnemonic = name then 256 else 0 := by
  have hword : ∀ k < 256, (decode (BitVec.ofNat 10 ((commandWord i v 0).toNat + k))).mnemonic =
      (decode (commandWord i v 0)).mnemonic := by
    intro k hk
    have hnum : (commandWord i v 0).toNat + k = (commandWord i v (BitVec.ofNat 8 k)).toNat := by
      simp [toNat_commandWord, Nat.mod_eq_of_lt hk]
    rw [hnum, BitVec.ofNat_toNat, BitVec.setWidth_eq, mnemonic_decode_commandWord]
  split
  · rename_i h
    exact Nat.count_of_forall fun k hk => (hword k hk).trans h
  · rename_i h
    exact Nat.count_of_forall_not fun k hk hname => h ((hword k hk).symm.trans hname)

/-- The 1024 numbers in four blocks of 256, each from the word with data byte 0. -/
theorem count_1024_eq_blocks (p : Nat → Prop) [DecidablePred p] :
    Nat.count p 1024 =
      Nat.count (fun k => p ((commandWord false false 0).toNat + k)) 256 +
      Nat.count (fun k => p ((commandWord false true 0).toNat + k)) 256 +
      Nat.count (fun k => p ((commandWord true false 0).toNat + k)) 256 +
      Nat.count (fun k => p ((commandWord true true 0).toNat + k)) 256 := by
  have hblocks : Nat.count p 1024 = Nat.count p (256 + 256 + 256 + 256) := rfl
  rw [hblocks, Nat.count_add, Nat.count_add, Nat.count_add]
  simp [toNat_commandWord]

/-- R62: each row has one of the four blocks. -/
theorem count_mnemonic_eq_256 {r : String × CommandWord × CommandWord} (hr : r ∈ opcodeRows) :
    Nat.count (fun n => (decode (BitVec.ofNat 10 n)).mnemonic = r.1) 1024 = 256 := by
  rw [count_1024_eq_blocks]
  simp only [count_mnemonic_block, decode_nop, decode_feed, decode_init, decode_initfeed]
  revert r
  decide

/-- Settles O2: a word's row is that of its command, whose block has 256 words; and every edge completes. -/
theorem everyWordIsOneCommand : Obligations.EveryWordIsOneCommand := by
  refine ⟨fun w => ?_, fun w r hr => match_iff_mnemonic w hr, fun r hr => ?_, fun w s => ⟨_, clockEdge_eq_next _ s⟩⟩
  · obtain ⟨r, ⟨hr, hname⟩, honly⟩ := existsUnique_row (decode w)
    exact ⟨r, ⟨hr, (match_iff_mnemonic w hr).2 hname⟩,
      fun r' ⟨hr', hmatch⟩ => honly r' ⟨hr', (match_iff_mnemonic w hr').1 hmatch⟩⟩
  · rw [← List.countP_eq_length_filter]
    exact count_mnemonic_eq_256 hr

end Sys2Proof.Claims
end

section
/-!
PROOF. The datapath loses nothing (spec/30_encoding.md R64): a bit step, a chain of them and the alignment of a byte
are injective, so different bytes absorbed into one value give different values.
-/

namespace Sys2Proof.Machine

/-- Bit 0 of the result shows the bit that left by the tap, because `POLY[0] = 1`. -/
theorem getLsbD_zero_bitStep (a : Bits24) : (bitStep a).getLsbD 0 = a.getLsbD 23 := by
  have hshift : (shifted a).getLsbD 0 = false := by simp [shifted]
  have hpoly : Config.poly.getLsbD 0 = true := by decide
  rw [← feedbackTap_shifted, bitStep, BitVec.getLsbD_setWidth, feedback]
  cases feedbackTap (shifted a)
  · simpa using hshift
  · simp only [if_true, BitVec.getLsbD_xor, hshift, hpoly]
    decide

/-- A value the bit step takes to 0 had bit 23 clear, so it was only shifted, and no bit left. -/
theorem eq_zero_of_bitStep_eq_zero {a : Bits24} (h : bitStep a = 0) : a = 0 := by
  have hclear : a.getLsbD 23 = false := by rw [← getLsbD_zero_bitStep, h]; rfl
  have hshift : a <<< 1 = 0 := by rw [← bitStep_of_clear hclear, h]
  apply BitVec.eq_of_getLsbD_eq
  intro k hk
  obtain rfl | hlt : k = 23 ∨ k < 23 := by omega
  · exact hclear
  · have hbit : (a <<< 1).getLsbD (k + 1) = a.getLsbD k := by
      have hfits : k + 1 < 24 := by omega
      simp [BitVec.getLsbD_shiftLeft, hfits, -BitVec.getLsbD_eq_getElem]
    rw [← hbit, hshift, BitVec.ofNat_eq_ofNat, BitVec.getLsbD_zero, BitVec.getLsbD_zero]

theorem bitStep_injective : Function.Injective bitStep := by
  intro a d h
  have hdiff : bitStep (a ^^^ d) = 0 := by rw [bitStep_xor, h]; exact BitVec.xor_self
  exact BitVec.xor_eq_zero_iff.1 (eq_zero_of_bitStep_eq_zero hdiff)

theorem bitSteps_injective (n : Nat) : Function.Injective (bitSteps n) := by
  induction n with
  | zero => exact Function.injective_id
  | succ n ih => exact ih.comp bitStep_injective

/-- The aligned byte can be read back from bits 23 to 16 (R63). -/
theorem extractLsb'_alignByte (b : Byte) : (alignByte b).extractLsb' 16 8 = b := by
  apply BitVec.eq_of_getLsbD_eq
  intro k hk
  have hplace : 16 + k < 24 := by omega
  simp [alignByte, hk, hplace]

theorem alignByte_injective : Function.Injective alignByte := by
  intro b b' h
  rw [← extractLsb'_alignByte b, h, extractLsb'_alignByte]

theorem byteStep_injective_byte (v : Bits24) : Function.Injective (byteStep v) := by
  intro b b' h
  exact alignByte_injective ((BitVec.xor_right_inj v).1 (bitSteps_injective _ h))

end Sys2Proof.Machine
end

section
/-!
PROOF. From the ports to the command (spec/30_encoding.md R61, R64): what a cycle with defined inputs makes the edge do,
and the data port, without effect where it is not valid and never lost where it is.
-/

namespace Sys2Proof.Claims
open Sys2Proof.Machine

/-! ## Cycles with defined inputs -/

theorem sample_defined (r i v obs : Bool) (d : Byte) :
    (DriverCycle.mk (.defined r) (.defined i) (.defined v) (.defined d) obs).sample =
      if r then .reset else .command (commandWord i v d) := rfl

/-- Settles O6: the edge is that of the sampled ports, in the state one cycle on. -/
theorem stepRunsTheDecodedCommand : Obligations.StepRunsTheDecodedCommand := by
  have hedge (s : State) (r i v obs : Bool) (d : Byte) (rest : List DriverCycle)
      (hdr : s.driver = ⟨.defined r, .defined i, .defined v, .defined d, obs⟩ :: rest)
      (ho : obs = true → s.crc ≠ .unwritten) :
      step s = clockEdge (if r then .reset else .command (commandWord i v d))
        { s with cycle := s.cycle + 1, driver := rest } := by
    have hcur := current_of_driver hdr
    rw [step_of_allowed (hcur ▸ ho), hcur, sample_defined, State.nextCycle, hdr, List.tail_cons]
  exact ⟨fun s i v obs d rest hdr ho => hedge s false i v obs d rest hdr ho,
    fun s i v obs d rest hdr ho => hedge s true i v obs d rest hdr ho⟩

/-! ## Commands in consecutive cycles -/

/-- One command's cycle is its effect on `CRC`, on every state (R110). -/
theorem step_presentCommand {s : State} {i : Instr} {rest : List DriverCycle}
    (hdr : s.driver = .ofWord (encode i) :: rest) : step s = .next (after s 1 rest (effect i s.crc)) := by
  have hcur := current_of_driver hdr
  rw [step_eq_successor (by simp [hcur])]
  simp [successor, after, hcur, hdr, DriverCycle.driven, crcAfterEdge]

/-- Commands one per cycle are their effects, in order (R156). -/
theorem run_presentCommands {is : List Instr} {s : State} {rest : List DriverCycle}
    (hdr : s.driver = presentCommands is ++ rest) :
    runFor is.length s = .next (after s is.length rest (is.foldl (fun c i => effect i c) s.crc)) := by
  induction is generalizing s with
  | nil => exact congrArg Host.Outcome.next (State.eq_of_fields rfl rfl hdr rfl)
  | cons i is ih =>
    have hrest := ih (s := after s 1 (presentCommands is ++ rest) (effect i s.crc)) rfl
    rw [after_after, Nat.add_comm] at hrest
    exact (run_succ_of_step is.length (step_presentCommand hdr)).trans hrest

theorem foldl_effect_feed (v : Bits24) (m : List Byte) :
    (m.map Instr.feed).foldl (fun c i => effect i c) (.value v) = .value (absorbAll v m) := by
  induction m generalizing v with
  | nil => rfl
  | cons b m ih => exact ih (byteStep v b)

/-! ## The data port where `data_valid` is 0 -/

/-- With `data_valid = 0`, any data port gives a word, whose data bits alone depend on it (R64; log entry 7). -/
theorem sample_of_not_valid (r i obs : Bool) (d : Sampled Byte) :
    ∃ x, (DriverCycle.mk (.defined r) (.defined i) (.defined false) d obs).sample =
      if r then .reset else .command (commandWord i false x) := by
  cases d with
  | defined x => exact ⟨x, rfl⟩
  | undefined => exact ⟨0, rfl⟩

theorem decode_of_not_valid (i : Bool) (x : Byte) :
    decode (commandWord i false x) = if i then .init else .nop := by
  cases i
  · exact decode_nop x
  · exact decode_init x

/-- Two states with one `CRC` and one mark of observation, whose successors are equal, step alike. -/
theorem step_eq_step {s s' : State} (hc : s.crc = s'.crc) (ho : s.current.observe = s'.current.observe)
    (hsucc : successor s = successor s') : step s = step s' := by
  by_cases hread : s.current.observe = true ∧ s.crc = .unwritten
  · obtain ⟨hobs, hunw⟩ := hread
    rw [step_of_unwritten_read hobs hunw, step_of_unwritten_read (ho ▸ hobs) (hc ▸ hunw)]
  · have hallowed : s.current.observe = true → s.crc ≠ .unwritten := fun hobs hunw => hread ⟨hobs, hunw⟩
    rw [step_eq_successor hallowed, step_eq_successor (ho ▸ hc ▸ hallowed), hsucc]

/-- R64: the successor of a cycle with `data_valid = 0`, in which the data port does not occur. -/
theorem successor_of_not_valid (s : State) (r i obs : Bool) (d : Sampled Byte) (rest : List DriverCycle) :
    successor { s with driver := ⟨.defined r, .defined i, .defined false, d, obs⟩ :: rest } =
      after s 1 rest (if r ∨ i then .value Config.initValue else s.crc) := by
  obtain ⟨x, hx⟩ := sample_of_not_valid r i obs d
  cases r with
  | true => simp [successor, after, State.current, DriverCycle.driven, hx, crcAfterEdge]
  | false =>
    cases i <;> simp [successor, after, State.current, DriverCycle.driven, hx, crcAfterEdge, effect, Config.initValue]

/-- Settles O5: a step without valid data is that of a successor without the data port; a byte step keeps bytes apart. -/
theorem dataBitsMatterOnlyWhenValid : Obligations.DataBitsMatterOnlyWhenValid := by
  refine ⟨fun s r i obs d d' rest => step_eq_step rfl rfl ?_, fun s b b' v hc hne => ?_, fun s b b' hne => ?_⟩
  · rw [successor_of_not_valid, successor_of_not_valid]
  · refine ⟨_, _, exec_eq_next _ s, exec_eq_next _ s, fun h => hne ?_⟩
    simp only [hc, effect, CrcReg.value.injEq] at h
    exact byteStep_injective_byte v h
  · refine ⟨_, _, exec_eq_next _ s, exec_eq_next _ s, fun h => hne ?_⟩
    simp only [effect, CrcReg.value.injEq] at h
    exact byteStep_injective_byte _ h

end Sys2Proof.Claims
end

section
/-!
PROOF. The assembler (spec/30_encoding.md R67, R68): what a well-formed program assembles to, that its cycles sample
back to their lines, and what the program `CRC24 m` computes.
-/

namespace Sys2Proof.Claims
open Sys2Proof.Machine Sys2Proof.Asm

/-! ## Lines to cycles -/

theorem assemble_of_wf {ls : List Line} (h : ls.all Line.wf = true) :
    assemble ls = some ((ls.flatMap Line.expand).map cycleOf) :=
  if_pos h

theorem assemble_singleton_of_wf {l : Line} (h : l.wf = true) : assemble [l] = some (l.expand.map cycleOf) := by
  rw [assemble_of_wf (by simp [h]), List.flatMap_singleton]

theorem assemble_singleton_of_not_wf {l : Line} (h : l.wf = false) : assemble [l] = none := by
  simp [assemble, h]

/-- Programs that agree in well-formedness and in their expansion assemble alike (R68). -/
theorem assemble_eq_assemble {ls ls' : List Line} (hwf : ls.all Line.wf = ls'.all Line.wf)
    (hexpand : ls.flatMap Line.expand = ls'.flatMap Line.expand) : assemble ls = assemble ls' := by
  rw [assemble, assemble, hwf, hexpand]

theorem byteOk_iff (b : Nat) : byteOk b = true ↔ b ≤ 255 := decide_eq_true_iff

theorem byteOk_toNat (b : Byte) : byteOk b.toNat = true := (byteOk_iff _).2 (Nat.le_of_lt_succ b.isLt)

/-- A byte's number fills the data field as it is (R63). -/
theorem setWidth_ofNat_of_byteOk {b : Nat} (h : b ≤ 255) :
    (BitVec.ofNat 8 b).setWidth 10 = BitVec.ofNat 10 b :=
  BitVec.setWidth_ofNat_of_le_of_lt (by decide) (Nat.lt_succ_of_le h)

theorem assemble_command (c : Command) (h : c.wf = true) :
    assemble [.command c] = some [.ofWord (encode c.instr)] :=
  assemble_singleton_of_wf h

theorem encode_instr_feed {b : Nat} (h : b ≤ 255) :
    encode (Command.feed b).instr = 0x100 ||| BitVec.ofNat 10 b :=
  congrArg (0x100 ||| ·) (setWidth_ofNat_of_byteOk h)

theorem encode_instr_initfeed {b : Nat} (h : b ≤ 255) :
    encode (Command.initfeed b).instr = 0x300 ||| BitVec.ofNat 10 b :=
  congrArg (0x300 ||| ·) (setWidth_ofNat_of_byteOk h)

/-- Settles O32: each line expands to one cycle, whose word is the encoder's. -/
theorem linesAssembleToTheirWords : Obligations.LinesAssembleToTheirWords := by
  refine ⟨rfl, fun b hb => ?_, rfl, fun b hb => ?_, rfl, fun c hc => assemble_singleton_of_wf hc, fun b hb => ?_⟩
  · rw [assemble_command (.feed b) ((byteOk_iff b).2 hb), encode_instr_feed hb]
  · rw [assemble_command (.initfeed b) ((byteOk_iff b).2 hb), encode_instr_initfeed hb]
  · have hwide : byteOk b = false := decide_eq_false (Nat.not_le.2 hb)
    exact ⟨assemble_singleton_of_not_wf hwide, assemble_singleton_of_not_wf hwide⟩

/-! ## Cycles back to lines -/

theorem cycleOf_observe (x : Bool × Command) : (cycleOf x).observe = false := by
  obtain ⟨_ | _, c⟩ := x <;> rfl

theorem cycleOf_command_sample (c : Command) : (cycleOf (false, c)).sample = .command (encode c.instr) :=
  ofWord_sample _

theorem cycleOf_reset_sample (c : Command) : (cycleOf (true, c)).sample = .reset :=
  resetWith_sample _

/-- Settles O33: cycle k is that of expanded line k, whose word the decoder reads back. -/
theorem assembledProgramsDecodeBack : Obligations.AssembledProgramsDecodeBack := by
  intro ls hwf
  refine ⟨_, assemble_of_wf hwf, List.length_map _, fun k c r x hc hx => ?_⟩
  rw [List.getElem?_map, hx] at hc
  cases hc
  refine ⟨cycleOf_observe _, ?_, ?_⟩
  · rintro rfl
    exact cycleOf_reset_sample x
  · rintro rfl
    exact ⟨encode x.instr, cycleOf_command_sample x, decode_encode _⟩

/-! ## The program of a message -/

/-- The commands of `CRC24 m` (R68). -/
def messageCommands : List Byte → List Instr
  | [] => [.init]
  | b :: m => .initfeed b :: m.map .feed

/-- A byte's number names the byte. -/
theorem instr_feed_toNat (b : Byte) : (Command.feed b.toNat).instr = .feed b := by
  simp [Command.instr]

theorem instr_initfeed_toNat (b : Byte) : (Command.initfeed b.toNat).instr = .initfeed b := by
  simp [Command.instr]

theorem assemble_crc24 (m : List Byte) :
    assemble [.crc24 (m.map BitVec.toNat)] = some (presentCommands (messageCommands m)) := by
  have hwf : (Line.crc24 (m.map BitVec.toNat)).wf = true := by simp [Line.wf, byteOk_toNat]
  rw [assemble_singleton_of_wf hwf]
  cases m with
  | nil => rfl
  | cons b m =>
    simp [Line.expand, messageCommands, presentCommands, presentWords, cycleOf, instr_feed_toNat,
      instr_initfeed_toNat, Function.comp_def]

/-- The commands of a message give its CRC, whatever `CRC` held (R83, R116). -/
theorem foldl_effect_messageCommands (c : CrcReg) (m : List Byte) :
    (messageCommands m).foldl (fun c i => effect i c) c = .value (crc24 m) := by
  rw [crc24_eq_absorbAll]
  cases m with
  | nil => rfl
  | cons b m => exact foldl_effect_feed (byteStep Config.initValue b) m

/-- R68: the program `CRC24 m` leaves `crc24 m` on `crc_out`, from every state. -/
theorem run_crc24 (s : State) (m : List Byte) :
    ∃ p t, assemble [.crc24 (m.map BitVec.toNat)] = some p ∧
      runFor p.length (s.withProgram p) = .next t ∧ t.crcOut = .ok (crc24 m) := by
  have hrun := run_presentCommands (is := messageCommands m) (rest := [])
    (s := s.withProgram (presentCommands (messageCommands m))) (List.append_nil _).symm
  rw [foldl_effect_messageCommands] at hrun
  have hlen : (presentCommands (messageCommands m)).length = (messageCommands m).length := by
    simp [presentCommands, presentWords]
  exact ⟨_, _, assemble_crc24 m, hlen ▸ hrun, rfl⟩

/-! ## Pseudo-instructions -/

/-- Settles O34: each pseudo-instruction has the expansion and the well-formedness of the lines it stands for. -/
theorem pseudoInstructionsExpand : Obligations.PseudoInstructionsExpand := by
  refine ⟨fun n => ?_, fun bs => ?_, rfl, fun b bs => ?_, run_crc24⟩
  · apply assemble_eq_assemble
    · simp [Line.wf, Command.wf]
    · simp [Line.expand, List.flatMap_replicate]
  · apply assemble_eq_assemble
    · simp [Line.wf, Command.wf, Function.comp_def]
    · rw [List.flatMap_singleton, List.flatMap_map]
      exact List.map_eq_flatMap
  · apply assemble_eq_assemble <;> simp [Line.wf, Command.wf, Line.expand]

end Sys2Proof.Claims
end

section
/-!
PROOF. The bit step and the byte step as spec/40_poly_feedback_core.md R80 and R81 write them, and the checksum of a
message (R83, R84).
-/

namespace Sys2Proof.Machine
open Sys2Proof.Claims

/-! ## One stage -/

/-- The shifted value without its tap is the 24-bit shift. -/
theorem setWidth_shifted (a : Bits24) : (shifted a).setWidth 24 = a <<< 1 := by
  rw [shifted, setWidth_shiftLeft_of_fits 24 a (Nat.le_refl 25), BitVec.setWidth_eq]

/-- R80: a stage is the 24-bit shift, with `POLY24` fed back where bit 23 was set. -/
theorem bitStep_eq (a : Bits24) : bitStep a = a <<< 1 ^^^ if a.getLsbD 23 then Config.poly24 else 0 := by
  have hpoly : Config.poly.setWidth 24 = Config.poly24 := by decide
  rw [bitStep, feedback, feedbackTap_shifted]
  cases a.getLsbD 23
  · rw [if_neg Bool.false_ne_true, if_neg Bool.false_ne_true, setWidth_shifted, BitVec.ofNat_eq_ofNat, BitVec.xor_zero]
  · rw [if_pos rfl, if_pos rfl, BitVec.setWidth_xor, setWidth_shifted, hpoly]

/-- Settles O35: the stage's own equation, under a mask that keeps every bit; the tap before and after the feedback. -/
theorem bitStepShiftsAndFeedsBack : Obligations.BitStepShiftsAndFeedsBack := by
  refine ⟨fun a => ?_, fun a => ⟨feedbackTap_shifted a, feedbackTap_feedback _⟩, ?_, ?_, ?_, ?_, ?_, ?_⟩
  · calc bitStep a = a <<< 1 ^^^ if a.getLsbD 23 then Config.poly24 else 0 := bitStep_eq a
      _ = ((a <<< 1) &&& Config.outMask) ^^^ if a.getLsbD 23 then Config.poly24 else 0 := by rw [and_outMask]
  all_goals decide

/-! ## One byte -/

theorem bitSteps_eq_iterate (n : Nat) (a : Bits24) : bitSteps n a = bitStep^[n] a := by
  induction n generalizing a with
  | zero => rfl
  | succ n ih => rw [bitSteps_succ, ih, Function.iterate_succ_apply]

theorem alignByte_zero : alignByte 0 = 0 := by decide

/-- Eight places up, the byte has left the lane by the top. -/
theorem alignByte_shiftLeft_eight (b : Byte) : alignByte b <<< 8 = 0 := by
  rw [alignByte, ← BitVec.shiftLeft_add]
  exact BitVec.shiftLeft_eq_zero (Nat.le_refl 24)

/-- R81: the state and the byte meet only in the XOR before the stages. -/
theorem byteStep_xor_alignByte (s : Bits24) (b : Byte) : byteStep (s ^^^ alignByte b) 0 = byteStep s b := by
  rw [byteStep, byteStep, alignByte_zero, BitVec.ofNat_eq_ofNat, BitVec.xor_zero]

/-- Settles O36: the chain of stages is the iterate, and a zero byte adds nothing to the XOR of state and byte. -/
theorem byteStepIsEightBitSteps : Obligations.ByteStepIsEightBitSteps := by
  refine ⟨fun s b => bitSteps_eq_iterate 8 _, fun s b => (byteStep_xor_alignByte s b).symm, ?_, ?_, ?_, ?_, ?_⟩
  all_goals decide

/-! ## One message -/

theorem crc24_append (m m' : List Byte) : crc24 (m ++ m') = absorbAll (crc24 m) m' := by
  simp only [crc24_eq_absorbAll, absorbAll_append]

/-- V-SRC-2: the checksum of the check string "123456789". -/
theorem crc24_checkString :
    crc24 [0x31, 0x32, 0x33, 0x34, 0x35, 0x36, 0x37, 0x38, 0x39] = 0x21CF02 := by decide +kernel

/-- Settles O37: the mask keeps every bit, so a message's checksum is its fold, and further bytes go on from it. -/
theorem crc24IsTheFoldOfByteSteps : Obligations.Crc24IsTheFoldOfByteSteps :=
  ⟨fun m => ⟨rfl, crc24_eq_absorbAll m⟩, crc24_eq_absorbAll [], crc24_append, crc24_checkString⟩

end Sys2Proof.Machine
end

section
/-!
PROOF. Accumulators of other widths (spec/40_poly_feedback_core.md R87 to R89): 24 bits lose the tap; from 25 bits on
the accumulator is the 24-bit register, and what stands above bit 23 only moves further up.
-/

namespace Sys2Proof.Machine
open Sys2Proof.Claims

/-! ## A 24-bit shift -/

/-- R87: in 24 bits the mask `0x1000000` is 0, so the test never sees a bit. -/
theorem accBitStep_narrow (a : BitVec 24) : accBitStep a = a <<< 1 := by
  have hmask : BitVec.ofNat 24 0x1000000 = 0#24 := by decide
  rw [accBitStep, hmask, BitVec.and_zero]
  exact if_pos rfl

theorem accBitSteps_narrow (n : Nat) (a : BitVec 24) : accBitSteps n a = a <<< n := by
  induction n generalizing a with
  | zero => exact (BitVec.shiftLeft_zero a).symm
  | succ n ih => rw [accBitSteps_succ, accBitStep_narrow, ih, ← BitVec.shiftLeft_add, Nat.add_comm]

/-- The byte enters at bits 23 to 16 and is shifted out whole. -/
theorem accByteStep_narrow (a : BitVec 24) (b : Byte) : accByteStep (laneUnsigned 24) a b = a <<< 8 := by
  have hout : laneUnsigned 24 b <<< 8 = 0 := alignByte_shiftLeft_eight b
  rw [accByteStep, accBitSteps_narrow, Config.stepsPerByte, BitVec.shiftLeft_xor_distrib, hout]
  exact BitVec.xor_zero

/-- R87: after a message the initial value is shifted out by eight places per byte. -/
theorem maskedResult_narrow (m : List Byte) :
    maskedResult (laneUnsigned 24) m = Config.initValue <<< (8 * m.length) := by
  have hfold (a : BitVec 24) : m.foldl (accByteStep (laneUnsigned 24)) a = a <<< (8 * m.length) := by
    induction m generalizing a with
    | nil => exact (BitVec.shiftLeft_zero a).symm
    | cons b m ih =>
      rw [List.foldl_cons, accByteStep_narrow, ih, ← BitVec.shiftLeft_add, List.length_cons, Nat.mul_succ, Nat.add_comm]
  exact (and_outMask _).trans (hfold _)

/-- Settles O40: a stage is the bare shift, so a message's result depends on its length alone. -/
theorem narrowDatapathNeverFeedsBack : Obligations.NarrowDatapathNeverFeedsBack := by
  refine ⟨accBitStep_narrow, fun b => ?_, fun b c => ?_, fun m hm => ?_⟩
  · rw [maskedResult_narrow, List.length_singleton]
    decide
  · rw [maskedResult_narrow, List.length_cons, List.length_singleton]
    decide
  · rw [maskedResult_narrow]
    exact BitVec.shiftLeft_eq_zero (by omega)

/-! ## From 25 bits on -/

/-- R88: the shifted value of a zero-extended register has the tap's bit 24 and nothing above it. -/
theorem getLsbD_setWidth_shiftLeft_one (W : Nat) (a : Bits24) {k : Nat} (hk : 25 ≤ k) :
    (a.setWidth W <<< 1).getLsbD k = false := by
  rw [← setWidth_shiftLeft_of_fits W a (Nat.le_refl 25), BitVec.getLsbD_setWidth, BitVec.getLsbD_of_ge _ k hk,
    Bool.and_false]

/-- Settles O41: the wide accumulator is the register zero-extended, before, between and after the stages. -/
theorem everyWidthFrom25GivesCrc24 : Obligations.EveryWidthFrom25GivesCrc24 := by
  intro W hW
  have hacc (m : List Byte) : accumulated (laneUnsigned W) m = (crc24 m).setWidth W := by
    rw [accumulated_eq_setWidth hW, crc24_eq_absorbAll]
  refine ⟨fun m => ⟨?_, hacc m⟩, fun m b n k _ hk => ?_⟩
  · rw [maskedResult, hacc, setWidth_and_mask hW]
  · rw [hacc, laneUnsigned_eq_setWidth, ← BitVec.setWidth_xor, accBitSteps_setWidth hW]
    exact getLsbD_setWidth_shiftLeft_one W _ hk

/-! ## A sign-extended byte -/

/-- A mask below 2^i does not see what stands from bit i up. -/
theorem xor_shiftLeft_and_ofNat {W M i : Nat} (hM : M < 2 ^ i) (a y : BitVec W) :
    (a ^^^ y <<< i) &&& BitVec.ofNat W M = a &&& BitVec.ofNat W M := by
  apply BitVec.eq_of_getLsbD_eq
  intro k _
  obtain hlo | hhi := Nat.lt_or_ge k i
  · have hclear : (y <<< i).getLsbD k = false := by simp [hlo, -BitVec.getLsbD_eq_getElem]
    rw [BitVec.getLsbD_and, BitVec.getLsbD_and, BitVec.getLsbD_xor, hclear, Bool.xor_false]
  · have hmask : (BitVec.ofNat W M).getLsbD k = false := by
      rw [BitVec.getLsbD_ofNat, Nat.testBit_lt_two_pow (hM.trans_le (Nat.pow_le_pow_right Nat.two_pos hhi)),
        Bool.and_false]
    rw [BitVec.getLsbD_and, BitVec.getLsbD_and, hmask, Bool.and_false, Bool.and_false]

/-- R89: what stands above bit 23 moves up by a stage, and the stage's test does not see it. -/
theorem accBitStep_xor_high {W : Nat} (a y : BitVec W) {i : Nat} (hi : 24 ≤ i) :
    accBitStep (a ^^^ y <<< i) = accBitStep a ^^^ y <<< (i + 1) := by
  have htest : 0x1000000 < 2 ^ (i + 1) :=
    (by decide : 0x1000000 < 2 ^ 25).trans_le (Nat.pow_le_pow_right Nat.two_pos (Nat.succ_le_succ hi))
  rw [accBitStep, accBitStep, BitVec.shiftLeft_xor_distrib, ← BitVec.shiftLeft_add, xor_shiftLeft_and_ofNat htest]
  split
  · rfl
  · rw [BitVec.xor_assoc, BitVec.xor_comm (y <<< (i + 1)), ← BitVec.xor_assoc]

theorem accBitSteps_xor_high {W : Nat} (n : Nat) (a y : BitVec W) {i : Nat} (hi : 24 ≤ i) :
    accBitSteps n (a ^^^ y <<< i) = accBitSteps n a ^^^ y <<< (i + n) := by
  induction n generalizing a i with
  | zero => rfl
  | succ n ih =>
    rw [accBitSteps_succ, accBitStep_xor_high a y hi, ih _ (Nat.le_succ_of_le hi), accBitSteps_succ,
      Nat.succ_add_eq_add_succ]

/-- The sign of a byte in every place: what sign extension puts above the byte (R89). -/
def signFill (W : Nat) (b : Byte) : BitVec W := if b.msb then BitVec.allOnes W else 0

theorem getLsbD_signFill {W : Nat} (b : Byte) {k : Nat} (hk : k < W) : (signFill W b).getLsbD k = b.msb := by
  cases hb : b.msb <;> simp [signFill, hb, hk, -BitVec.getLsbD_eq_getElem]

theorem signExtend_eq_xor_signFill (W : Nat) (b : Byte) : b.signExtend W = b.setWidth W ^^^ signFill W b <<< 8 := by
  apply BitVec.eq_of_getLsbD_eq
  intro k hk
  rw [BitVec.getLsbD_signExtend, BitVec.getLsbD_xor, BitVec.getLsbD_setWidth, BitVec.getLsbD_shiftLeft]
  by_cases h8 : k < 8
  · simp only [hk, h8, decide_true, if_true, Bool.not_true, Bool.and_false, Bool.false_and, Bool.xor_false]
  · have hbit : b.getLsbD k = false := BitVec.getLsbD_of_ge b k (Nat.le_of_not_lt h8)
    have hfill : (signFill W b).getLsbD (k - 8) = b.msb := getLsbD_signFill b (by omega)
    simp only [hk, h8, hbit, hfill, decide_true, decide_false, if_false, Bool.not_false, Bool.true_and, Bool.and_true,
      Bool.and_false, Bool.false_xor]

/-- R89: sign extension changes bits 24 and above of `b << 16`, and no other. -/
theorem laneSigned_eq (W : Nat) (b : Byte) : laneSigned W b = laneUnsigned W b ^^^ signFill W b <<< 24 := by
  rw [laneSigned, signExtend_eq_xor_signFill, BitVec.shiftLeft_xor_distrib, ← BitVec.shiftLeft_add, laneUnsigned]

/-- R89: after the byte's stages its signs stand above bit 31. -/
theorem accByteStep_laneSigned {W : Nat} (a : BitVec W) (b : Byte) :
    accByteStep (laneSigned W) a b = accByteStep (laneUnsigned W) a b ^^^ signFill W b <<< 32 := by
  rw [accByteStep, laneSigned_eq, ← BitVec.xor_assoc]
  exact accBitSteps_xor_high Config.stepsPerByte _ _ (Nat.le_refl 24)

theorem accByteStep_xor_high {W : Nat} (lane : Byte → BitVec W) (a y : BitVec W) (b : Byte) :
    accByteStep lane (a ^^^ y <<< 24) b = accByteStep lane a b ^^^ y <<< 32 := by
  rw [accByteStep, BitVec.xor_assoc, BitVec.xor_comm (y <<< 24), ← BitVec.xor_assoc]
  exact accBitSteps_xor_high Config.stepsPerByte _ _ (Nat.le_refl 24)

/-- R89: the two accumulators of a message differ above bit 23 at most. -/
theorem foldl_laneSigned {W : Nat} (m : List Byte) (a y : BitVec W) :
    ∃ z : BitVec W, m.foldl (accByteStep (laneSigned W)) (a ^^^ y <<< 24) =
      m.foldl (accByteStep (laneUnsigned W)) a ^^^ z <<< 24 := by
  induction m generalizing a y with
  | nil => exact ⟨y, rfl⟩
  | cons b m ih =>
    have hstep : accByteStep (laneSigned W) (a ^^^ y <<< 24) b =
        accByteStep (laneUnsigned W) a b ^^^ ((signFill W b ^^^ y) <<< 8) <<< 24 := by
      rw [accByteStep_xor_high, accByteStep_laneSigned, BitVec.xor_assoc, ← BitVec.shiftLeft_add,
        BitVec.shiftLeft_xor_distrib]
    rw [List.foldl_cons, List.foldl_cons, hstep]
    exact ih _ _

theorem toNat_alignByte (b : Byte) : (alignByte b).toNat = b.toNat * 2 ^ 16 := by
  have hb : b.toNat < 2 ^ 8 := b.isLt
  rw [alignByte, BitVec.toNat_shiftLeft, BitVec.toNat_setWidth, Nat.shiftLeft_eq]
  omega

theorem maskedResult_laneSigned (W : Nat) (m : List Byte) :
    maskedResult (laneSigned W) m = maskedResult (laneUnsigned W) m := by
  obtain ⟨z, hz⟩ := foldl_laneSigned m (BitVec.ofNat W 0xB704CE) 0#W
  rw [BitVec.zero_shiftLeft, BitVec.xor_zero] at hz
  rw [maskedResult, accumulated, hz]
  exact xor_shiftLeft_and_ofNat (by decide) _ z

/-- Up to 32 bits the signs have left the accumulator after the byte's own stages. -/
theorem accByteStep_laneSigned_of_le {W : Nat} (hW : W ≤ 32) :
    accByteStep (laneSigned W) = accByteStep (laneUnsigned W) := by
  funext a b
  rw [accByteStep_laneSigned, BitVec.shiftLeft_eq_zero hW]
  exact BitVec.xor_zero

/-- Above 32 bits the sign of a byte from 0x80 is in bit 32. -/
theorem accByteStep_laneSigned_ne {W : Nat} (hW : 32 < W) (a : BitVec W) {b : Byte} (hb : b.msb = true) :
    accByteStep (laneSigned W) a b ≠ accByteStep (laneUnsigned W) a b := by
  intro heq
  have hbit : (accByteStep (laneSigned W) a b).getLsbD 32 = !(accByteStep (laneUnsigned W) a b).getLsbD 32 := by
    rw [accByteStep_laneSigned, BitVec.getLsbD_xor, BitVec.getLsbD_shiftLeft, getLsbD_signFill b (by omega), hb]
    simp [hW]
  rw [heq] at hbit
  exact absurd hbit.symm (Bool.not_ne_self _)

/-- Settles O42: sign extension changes the lane above bit 23 only; such bits never come down to the mask's 24, and have
left a 32-bit accumulator after the byte's own stages. -/
theorem signExtensionLeavesTheMaskedResult : Obligations.SignExtensionLeavesTheMaskedResult := by
  refine ⟨toNat_alignByte, fun W m _ => maskedResult_laneSigned W m, fun W m _ hW => ?_, fun W b hW hb => ?_,
    fun W b => ?_, by decide +kernel⟩
  · rw [accumulated, accumulated, accByteStep_laneSigned_of_le hW]
  · exact accByteStep_laneSigned_ne hW _ (BitVec.msb_eq_true_iff_two_mul_ge.2 (by omega))
  · rw [laneEightBit, BitVec.shiftLeft_eq_zero (by decide)]
    exact BitVec.setWidth_zero ..

end Sys2Proof.Machine
end

section
/-!
PROOF. The byte step is linear over XOR and a bijection on the states (spec/40_poly_feedback_core.md R92, R93), and what
follows for messages: the checksum is affine, and an error in a single byte shows (R96).
-/

namespace Sys2Proof.Machine
open Sys2Proof.Claims

/-! ## Linearity -/

theorem xor_xor_xor_comm {n : Nat} (a b c d : BitVec n) : a ^^^ b ^^^ (c ^^^ d) = a ^^^ c ^^^ (b ^^^ d) := by ac_rfl

theorem byteStep_xor (s t : Bits24) (b c : Byte) : byteStep (s ^^^ t) (b ^^^ c) = byteStep s b ^^^ byteStep t c := by
  rw [byteStep, alignByte_xor, xor_xor_xor_comm, bitSteps_xor, byteStep, byteStep]

theorem absorbAll_zipWith_xor {m n : List Byte} (h : m.length = n.length) (a d : Bits24) :
    absorbAll (a ^^^ d) (List.zipWith (· ^^^ ·) m n) = absorbAll a m ^^^ absorbAll d n := by
  induction m generalizing n a d with
  | nil =>
    obtain rfl : n = [] := List.length_eq_zero_iff.1 h.symm
    rfl
  | cons b m ih =>
    obtain ⟨c, n, rfl⟩ := List.exists_cons_of_length_eq_add_one h.symm
    rw [List.zipWith_cons_cons, absorbAll_cons, byteStep_xor, ih (Nat.succ.inj h), absorbAll_cons, absorbAll_cons]

theorem crc24Zero_eq_absorbAll (m : List Byte) : crc24Zero m = absorbAll 0 m := and_outMask _

/-- R92, second form: XORing a message into another one XORs the checksum with that from the initial value 0. -/
theorem crc24_zipWith_xor {m n : List Byte} (h : m.length = n.length) :
    crc24 (List.zipWith (· ^^^ ·) m n) = crc24 m ^^^ crc24Zero n := by
  calc crc24 (List.zipWith (· ^^^ ·) m n)
      = absorbAll (Config.initValue ^^^ 0) (List.zipWith (· ^^^ ·) m n) := crc24_eq_absorbAll _
    _ = absorbAll Config.initValue m ^^^ absorbAll 0 n := absorbAll_zipWith_xor h _ _
    _ = crc24 m ^^^ crc24Zero n := by rw [crc24_eq_absorbAll, crc24Zero_eq_absorbAll]

theorem zipWith_xor_zeros (n : List Byte) : List.zipWith (· ^^^ ·) (List.replicate n.length (0 : Byte)) n = n := by
  induction n with
  | nil => rfl
  | cons b n ih =>
    rw [List.length_cons, List.replicate_succ, List.zipWith_cons_cons, ih]
    exact congrArg (· :: n) BitVec.zero_xor

/-- The checksum of a message is that from 0, XORed with the one of as many zero bytes. -/
theorem crc24_eq_zeros_xor_crc24Zero (n : List Byte) :
    crc24 n = crc24 (List.replicate n.length 0) ^^^ crc24Zero n := by
  rw [← crc24_zipWith_xor List.length_replicate, zipWith_xor_zeros]

/-- Settles O45: messages are absorbed linearly from an XOR of initial values, and `INIT_VALUE` is `INIT_VALUE ^ 0`. -/
theorem checksumIsAffine : Obligations.ChecksumIsAffine := by
  refine ⟨bitStep_xor, byteStep_xor, by decide, fun m n h => ⟨?_, crc24_zipWith_xor h⟩⟩
  rw [crc24_zipWith_xor h, crc24_eq_zeros_xor_crc24Zero n, h, BitVec.xor_comm (crc24 (List.replicate _ _)),
    BitVec.xor_assoc, BitVec.xor_assoc, BitVec.xor_self, BitVec.xor_zero]

/-! ## Bijection -/

theorem byteStep_injective_state (b : Byte) : Function.Injective (byteStep · b) := by
  intro s t h
  exact (BitVec.xor_left_inj (alignByte b)).1 (bitSteps_injective _ h)

/-- Settles O46: the stages are injective and so is the XOR of the byte; the states are finitely many. -/
theorem byteStepIsABijection : Obligations.ByteStepIsABijection := fun b =>
  Finite.injective_iff_bijective.1 (byteStep_injective_state b)

theorem absorbAll_injective_state (m : List Byte) : Function.Injective (absorbAll · m) := by
  induction m with
  | nil => exact Function.injective_id
  | cons b m ih => exact ih.comp (byteStep_injective_state b)

/-- Settles O50: the two bytes take one state to two, and the bytes behind keep these apart. -/
theorem singleByteErrorsAreDetected : Obligations.SingleByteErrorsAreDetected := by
  intro before behind b b' hne heq
  rw [crc24_append, crc24_append, absorbAll_cons, absorbAll_cons] at heq
  exact hne (byteStep_injective_byte _ (absorbAll_injective_state behind heq))

end Sys2Proof.Machine
end

section
/-!
PROOF. The table-driven form and the printed table (spec/40_poly_feedback_core.md R94, spec/95_test_vectors.md V-TABLE),
and what the table says of a byte equal to the top byte and of a zero byte (R97, R98).
-/

namespace Sys2Proof.Machine
open Sys2Proof.Claims

/-! ## The table -/

/-- The byte's bits in the lane, bits 23 to 16 (R63). -/
theorem getLsbD_alignByte {k : Nat} (b : Byte) (hlo : 16 ≤ k) (hhi : k < 24) :
    (alignByte b).getLsbD k = b.getLsbD (k - 16) := by
  have hk : k - 16 < 8 := by omega
  simp [alignByte, hhi, hk.trans, Nat.not_lt.2 hlo, -BitVec.getLsbD_eq_getElem]

/-- As long as no set bit reaches the tap, n stages are a shift. -/
theorem bitSteps_of_clear {n : Nat} {a : Bits24} (h : ∀ k, 24 ≤ k + n → a.getLsbD k = false) :
    bitSteps n a = a <<< n := by
  induction n generalizing a with
  | zero => exact (BitVec.shiftLeft_zero a).symm
  | succ n ih =>
    have hrest (k : Nat) (hk : 24 ≤ k + n) : (a <<< 1).getLsbD k = false := by
      rw [BitVec.getLsbD_shiftLeft, h (k - 1) (by omega), Bool.and_false]
    rw [bitSteps_succ, bitStep_of_clear (h 23 (by omega)), ih hrest, ← BitVec.shiftLeft_add, Nat.add_comm]

/-- A byte equal to the state's top byte cancels it, and the low 16 bits shift up without feedback (R94, R98). -/
theorem byteStep_topByte (s : Bits24) : byteStep s (s.extractLsb' 16 8) = s <<< 8 := by
  have hclear (k : Nat) (hk : 24 ≤ k + 8) : (s ^^^ alignByte (s.extractLsb' 16 8)).getLsbD k = false := by
    obtain hlt | hge := Nat.lt_or_ge k 24
    · have hplace : k - 16 < 8 ∧ 16 + (k - 16) = k := by omega
      rw [BitVec.getLsbD_xor, getLsbD_alignByte _ (by omega) hlt, BitVec.getLsbD_extractLsb', hplace.2]
      simp [hplace.1]
    · exact BitVec.getLsbD_of_ge _ k hge
  rw [byteStep, Config.stepsPerByte, bitSteps_of_clear hclear, BitVec.shiftLeft_xor_distrib,
    alignByte_shiftLeft_eight]
  exact BitVec.xor_zero

/-- R94 without its mask: the low 16 bits shift up, and what the top byte and the new byte feed back is in the table. -/
theorem byteStep_eq_shift_xor_tableEntry (s : Bits24) (b : Byte) :
    byteStep s b = s <<< 8 ^^^ tableEntry (s.extractLsb' 16 8 ^^^ b) := by
  have hbyte : s.extractLsb' 16 8 ^^^ (s.extractLsb' 16 8 ^^^ b) = b := by
    rw [← BitVec.xor_assoc, BitVec.xor_self, BitVec.zero_xor]
  calc byteStep s b = byteStep (s ^^^ 0) (s.extractLsb' 16 8 ^^^ (s.extractLsb' 16 8 ^^^ b)) := by
        rw [hbyte, BitVec.ofNat_eq_ofNat, BitVec.xor_zero]
    _ = s <<< 8 ^^^ tableEntry (s.extractLsb' 16 8 ^^^ b) := by rw [byteStep_xor, byteStep_topByte, tableEntry]

/-- The mask of R94 keeps every bit of the shifted state. -/
theorem shiftLeft_eight_and_mask (s : Bits24) : s <<< 8 &&& (0xFFFF00 : Bits24) = s <<< 8 := by
  have hmask : (0xFFFF00 : Bits24) = BitVec.allOnes 24 <<< 8 := by decide
  rw [hmask, ← BitVec.shiftLeft_and_distrib, BitVec.and_allOnes]

/-- Settles O47: the state's top byte and the new byte meet in the table's index, the mask changes nothing. -/
theorem tableDrivenFormIsByteStep : Obligations.TableDrivenFormIsByteStep := by
  refine ⟨fun s b => ?_, by decide, by decide, by decide⟩
  rw [tableByteStep, shiftLeft_eight_and_mask, byteStep_eq_shift_xor_tableEntry]

/-- Settles O48: the 256 printed entries, each evaluated. -/
theorem printedTableIsT : Obligations.PrintedTableIsT :=
  ⟨by decide +kernel, by decide +kernel⟩

/-! ## A zero byte -/

/-- `s = t ^ (s << 8)` solved for s, from the low byte up. -/
theorem eq_of_eq_xor_shiftLeft_eight {s t : Bits24} (h : s = t ^^^ s <<< 8) : s = t ^^^ t <<< 8 ^^^ t <<< 16 := by
  calc s = t ^^^ (t ^^^ (t ^^^ s <<< 8) <<< 8) <<< 8 := by rw [← h, ← h, ← h]
    _ = t ^^^ t <<< 8 ^^^ t <<< 16 ^^^ s <<< 24 := by
      simp only [BitVec.shiftLeft_xor_distrib, ← BitVec.shiftLeft_add, BitVec.xor_assoc]
    _ = t ^^^ t <<< 8 ^^^ t <<< 16 := by
      rw [BitVec.shiftLeft_eq_zero (Nat.le_refl 24)]
      exact BitVec.xor_zero

/-- The one state with the top byte t that a zero byte may keep: the solution of `s = T[t] ^ (s << 8)` (R94, R97). -/
def fixedCandidate (t : Byte) : Bits24 := tableEntry t ^^^ tableEntry t <<< 8 ^^^ tableEntry t <<< 16

theorem eq_fixedCandidate_of_fixed {s : Bits24} (h : byteStep s 0 = s) : s = fixedCandidate (s.extractLsb' 16 8) := by
  have hbyte : s.extractLsb' 16 8 ^^^ 0 = s.extractLsb' 16 8 := BitVec.xor_zero
  rw [byteStep_eq_shift_xor_tableEntry, hbyte, BitVec.xor_comm] at h
  exact eq_of_eq_xor_shiftLeft_eight h.symm

/-- Of the 256 candidates two have the top byte they were made from. -/
theorem fixedCandidate_of_topByte (t : Byte) : (fixedCandidate t).extractLsb' 16 8 = t →
    fixedCandidate t = 0x000000 ∨ fixedCandidate t = 0x823BA9 := by
  decide +kernel +revert

theorem byteStep_zero_eq_self_iff (s : Bits24) : byteStep s 0x00 = s ↔ s = 0x000000 ∨ s = 0x823BA9 := by
  constructor
  · intro h
    have hs := eq_fixedCandidate_of_fixed h
    rw [hs]
    exact fixedCandidate_of_topByte _ (congrArg (BitVec.extractLsb' 16 8) hs.symm)
  · rintro (rfl | rfl) <;> decide

/-- Settles O51: a zero byte keeps a CRC when that is a fixed point, and a fixed point is determined by its top byte. -/
theorem zeroByteKeepsExactlyTwoCrcs : Obligations.ZeroByteKeepsExactlyTwoCrcs := by
  refine ⟨fun m => crc24_concat m 0x00, fun m => ?_, byteStep_zero_eq_self_iff, ?_⟩
  · rw [crc24_concat]
    exact byteStep_zero_eq_self_iff _
  · calc crc24 ([0x31, 0x32, 0x33, 0x34, 0x35, 0x36, 0x37, 0x38, 0x39] ++ [0x00])
        = byteStep 0x21CF02 0x00 := by rw [crc24_concat, crc24_checkString]
      _ = 0x459F12 := by decide

/-! ## The residue -/

/-- A shift by i brings bits 23 - i down to 16 - i to the top. -/
theorem topByte_shiftLeft (c : Bits24) {i : Nat} (hi : i ≤ 16) :
    (c <<< i).extractLsb' 16 8 = c.extractLsb' (16 - i) 8 := by
  apply BitVec.eq_of_getLsbD_eq
  intro k hk
  have hplace : 16 + k < 24 ∧ ¬16 + k < i ∧ 16 + k - i = 16 - i + k := by omega
  obtain ⟨hfits, hge, hsub⟩ := hplace
  simp only [BitVec.getLsbD_extractLsb', BitVec.getLsbD_shiftLeft, hk, hfits, hge, hsub, decide_true, decide_false,
    Bool.not_false, Bool.true_and]

/-- R98: the three bytes of a state, high byte first, shift it out. -/
theorem absorbAll_own_bytes (c : Bits24) :
    absorbAll c [c.extractLsb' 16 8, c.extractLsb' 8 8, c.extractLsb' 0 8] = 0 := by
  have hmid : c.extractLsb' 8 8 = (c <<< 8).extractLsb' 16 8 := (topByte_shiftLeft c (i := 8) (by decide)).symm
  have hlow : c.extractLsb' 0 8 = (c <<< 16).extractLsb' 16 8 := (topByte_shiftLeft c (i := 16) (by decide)).symm
  rw [absorbAll_cons, byteStep_topByte, absorbAll_cons, hmid, byteStep_topByte, ← BitVec.shiftLeft_add,
    absorbAll_cons, hlow, byteStep_topByte, ← BitVec.shiftLeft_add, absorbAll_nil]
  exact BitVec.shiftLeft_eq_zero (Nat.le_refl 24)

theorem crc24_append_own_bytes (m : List Byte) : crc24 (m ++
    [(crc24 m).extractLsb' 16 8, (crc24 m).extractLsb' 8 8, (crc24 m).extractLsb' 0 8]) = 0x000000 := by
  rw [crc24_append, absorbAll_own_bytes]

/-- Settles O52: the CRC's own bytes shift it out of the register; the first example is the case of the check string. -/
theorem messageWithItsCrcHasResidueZero : Obligations.MessageWithItsCrcHasResidueZero := by
  refine ⟨crc24_append_own_bytes, ?_, by decide +kernel⟩
  have h := crc24_append_own_bytes [0x31, 0x32, 0x33, 0x34, 0x35, 0x36, 0x37, 0x38, 0x39]
  rw [crc24_checkString] at h
  exact h

end Sys2Proof.Machine
end

section
/-!
PROOF. The bit-serial form (spec/40_poly_feedback_core.md R95): the byte may wait in its lane and be taken bit by bit.
-/

namespace Sys2Proof.Machine
open Sys2Proof.Claims

/-- A bit that leaves the byte at its top leaves the lane too. -/
theorem alignByte_shiftLeft_one (b : Byte) : alignByte b <<< 1 = alignByte (b <<< 1) := by
  apply BitVec.eq_of_getLsbD_eq
  intro k hk
  rw [BitVec.getLsbD_shiftLeft]
  obtain hlo | hge := Nat.lt_or_ge k 16
  · rw [getLsbD_alignByte_of_outside b (by omega), getLsbD_alignByte_of_outside _ (by omega), Bool.and_false]
  rw [getLsbD_alignByte _ hge hk, BitVec.getLsbD_shiftLeft]
  obtain rfl | hgt := hge.eq_or_lt
  · rw [getLsbD_alignByte_of_outside b (by decide)]
    rfl
  · have hplace : ¬k < 1 ∧ ¬k - 16 < 1 ∧ k - 16 < 8 ∧ k - 1 - 16 = k - 16 - 1 := by omega
    obtain ⟨hk1, hk17, hbyte, hsub⟩ := hplace
    rw [getLsbD_alignByte b (by omega) (by omega), hsub]
    simp only [hk, hk1, hk17, hbyte, decide_true, decide_false, Bool.not_false, Bool.true_and]

/-- One stage takes bit 7 of the waiting byte from the lane to the tap, and the rest of the byte moves up. -/
theorem bitStep_xor_alignByte (s : Bits24) (b : Byte) :
    bitStep (s ^^^ alignByte b) = serialStage s (b.getLsbD 7) ^^^ alignByte (b <<< 1) := by
  have hmask : (0xFFFFFF : Bits24) = Config.outMask := rfl
  have htap : (s ^^^ alignByte b).getLsbD 23 = (s.getLsbD 23 ^^ b.getLsbD 7) := by
    rw [BitVec.getLsbD_xor, getLsbD_alignByte b (by decide) (by decide)]
  rw [bitStep_eq, htap, BitVec.shiftLeft_xor_distrib, alignByte_shiftLeft_one, serialStage, hmask, and_outMask,
    BitVec.xor_assoc, BitVec.xor_comm (alignByte _), ← BitVec.xor_assoc]

/-- The first n bits of a byte, most significant bit first. -/
def leadingBits : Nat → Byte → List Bool
  | 0, _ => []
  | n + 1, b => b.getLsbD 7 :: leadingBits n (b <<< 1)

theorem leadingBits_eight (b : Byte) : leadingBits 8 b = bitsMsbFirst b := by
  simp [leadingBits, bitsMsbFirst]

/-- After n stages the first n bits have gone into the serial register, and the others wait in the lane. -/
theorem bitSteps_xor_alignByte (n : Nat) (s : Bits24) (b : Byte) :
    bitSteps n (s ^^^ alignByte b) = (leadingBits n b).foldl serialStage s ^^^ alignByte (b <<< n) := by
  induction n generalizing s b with
  | zero => rw [BitVec.shiftLeft_zero]; rfl
  | succ n ih =>
    rw [bitSteps_succ, bitStep_xor_alignByte, ih, leadingBits, List.foldl_cons, ← BitVec.shiftLeft_add, Nat.add_comm 1]

/-- Settles O49: after eight stages no bit of the byte waits in the lane. -/
theorem bitSerialFormIsByteStep : Obligations.BitSerialFormIsByteStep := by
  intro s b
  have hout : alignByte (b <<< 8) = 0 := by rw [BitVec.shiftLeft_eq_zero (Nat.le_refl 8)]; exact alignByte_zero
  rw [byteStep, Config.stepsPerByte, bitSteps_xor_alignByte, leadingBits_eight, hout, serialByteStep]
  exact BitVec.xor_zero.symm

end Sys2Proof.Machine
end

section
/-!
PROOF. The steps as remainders modulo g(x) over GF(2) (spec/40_poly_feedback_core.md R91): the bit-vector operations
read as polynomials, and the steps as congruences, `generator ∣ p - toPoly a`.
-/

namespace Sys2Proof.Claims
open Polynomial Sys2Proof.Machine

/-! ## Bit vectors as polynomials -/

/-- The highest bit of a bit vector apart. -/
theorem toPoly_succ {n : Nat} (a : BitVec (n + 1)) :
    toPoly a = toPoly (a.setWidth n) + if a.getLsbD n then X ^ n else 0 := by
  rw [toPoly, Finset.sum_range_succ, toPoly]
  congr 1
  refine Finset.sum_congr rfl fun k hk => ?_
  have hlt : k < n := Finset.mem_range.1 hk
  simp only [BitVec.getLsbD_setWidth, hlt, decide_true, Bool.true_and]

theorem toPoly_xor {n : Nat} (a b : BitVec n) : toPoly (a ^^^ b) = toPoly a + toPoly b := by
  rw [toPoly, toPoly, toPoly, ← Finset.sum_add_distrib]
  refine Finset.sum_congr rfl fun k _ => ?_
  rw [BitVec.getLsbD_xor]
  cases a.getLsbD k <;> cases b.getLsbD k <;> simp [CharTwo.add_self_eq_zero]

theorem degree_toPoly_lt {n : Nat} (a : BitVec n) : (toPoly a).degree < n := by
  rw [← mem_degreeLT]
  refine Submodule.sum_mem _ fun k hk => ?_
  rw [mem_degreeLT]
  split
  · rw [degree_X_pow]
    exact_mod_cast Finset.mem_range.1 hk
  · rw [degree_zero]; exact WithBot.bot_lt_coe _

/-- A left shift that fits multiplies by a power of x. -/
theorem toPoly_setWidth_shiftLeft {n v : Nat} (a : BitVec n) (i : Nat) (h : v = i + n) :
    toPoly (a.setWidth v <<< i) = toPoly a * X ^ i := by
  subst h
  have hlow : ∀ k ∈ Finset.range i,
      (if (a.setWidth (i + n) <<< i).getLsbD k then (X : (ZMod 2)[X]) ^ k else 0) = 0 := fun k hk => by
    have hlt : k < i := Finset.mem_range.1 hk
    simp [BitVec.getLsbD_shiftLeft, hlt, -BitVec.getLsbD_eq_getElem]
  have hbit (k : Nat) (hk : k ∈ Finset.range n) : (a.setWidth (i + n) <<< i).getLsbD (i + k) = a.getLsbD k := by
    have hplace : i + k < i + n ∧ k < i + n := by have := Finset.mem_range.1 hk; omega
    simp [BitVec.getLsbD_shiftLeft, hplace, -BitVec.getLsbD_eq_getElem]
  rw [toPoly, Finset.sum_range_add, Finset.sum_eq_zero hlow, zero_add, toPoly, Finset.sum_mul]
  refine Finset.sum_congr rfl fun k hk => ?_
  rw [hbit k hk, ite_mul, zero_mul, ← pow_add, Nat.add_comm]

/-! ## The generator -/

theorem generator_eq_X_pow_add : generator = X ^ 24 + toPoly Config.poly24 := by
  have hlow : Config.poly.setWidth 24 = Config.poly24 := by decide
  have htop : Config.poly.getLsbD 24 = true := by decide
  rw [generator, toPoly_succ, hlow, htop, if_pos rfl, add_comm]

theorem monic_generator : generator.Monic := by
  rw [generator_eq_X_pow_add]
  exact monic_X_pow_add (degree_toPoly_lt _)

theorem degree_generator : generator.degree = 24 := by
  rw [generator_eq_X_pow_add, degree_add_eq_left_of_degree_lt]
  · exact degree_X_pow 24
  · rw [degree_X_pow]; exact degree_toPoly_lt _

/-- A 24-bit value is the remainder of what it is congruent to. -/
theorem toPoly_eq_modByMonic {a : Bits24} {p : (ZMod 2)[X]} (h : generator ∣ p - toPoly a) :
    toPoly a = p %ₘ generator := by
  have hdeg : (toPoly a).degree < generator.degree := by
    rw [degree_generator]
    exact degree_toPoly_lt a
  calc toPoly a = toPoly a %ₘ generator := ((modByMonic_eq_self_iff monic_generator).2 hdeg).symm
    _ = p %ₘ generator := (modByMonic_eq_of_dvd_sub monic_generator h).symm

/-! ## The steps -/

theorem toPoly_shifted (a : Bits24) : toPoly (shifted a) = toPoly a * X := by
  rw [shifted, toPoly_setWidth_shiftLeft a 1 rfl, pow_one]

theorem generator_dvd_feedback (t : Bits25) : generator ∣ toPoly t - toPoly (feedback t) := by
  rw [feedback]
  split
  · rw [toPoly_xor, sub_add_cancel_left, dvd_neg, generator]
  · rw [sub_self]; exact dvd_zero _

theorem toPoly_bitStep (a : Bits24) : toPoly (bitStep a) = toPoly (feedback (shifted a)) := by
  have hclear : (feedback (shifted a)).getLsbD 24 = false := feedbackTap_feedback _
  rw [toPoly_succ (feedback (shifted a)), hclear, bitStep, if_neg Bool.false_ne_true, add_zero]

theorem generator_dvd_bitStep (a : Bits24) : generator ∣ toPoly a * X - toPoly (bitStep a) := by
  rw [toPoly_bitStep, ← toPoly_shifted]
  exact generator_dvd_feedback _

theorem generator_dvd_bitSteps (n : Nat) (a : Bits24) : generator ∣ toPoly a * X ^ n - toPoly (bitSteps n a) := by
  induction n generalizing a with
  | zero => rw [pow_zero, mul_one, bitSteps_zero, sub_self]; exact dvd_zero _
  | succ n ih =>
    have hsplit : toPoly a * X ^ (n + 1) - toPoly (bitSteps (n + 1) a) =
        (toPoly a * X - toPoly (bitStep a)) * X ^ n +
          (toPoly (bitStep a) * X ^ n - toPoly (bitSteps n (bitStep a))) := by
      rw [bitSteps_succ]; ring
    rw [hsplit]
    exact dvd_add (Dvd.dvd.mul_right (generator_dvd_bitStep a) _) (ih _)

theorem toPoly_xor_alignByte (s : Bits24) (b : Byte) : toPoly (s ^^^ alignByte b) = toPoly s + toPoly b * X ^ 16 := by
  rw [toPoly_xor, alignByte, toPoly_setWidth_shiftLeft b 16 rfl]

theorem generator_dvd_byteStep (s : Bits24) (b : Byte) :
    generator ∣ (toPoly s + toPoly b * X ^ 16) * X ^ 8 - toPoly (byteStep s b) := by
  rw [← toPoly_xor_alignByte]
  exact generator_dvd_bitSteps 8 _

theorem generator_dvd_absorbAll (a : Bits24) (m : List Byte) :
    generator ∣ toPoly a * X ^ (8 * m.length) + messagePoly m * X ^ 24 - toPoly (absorbAll a m) := by
  induction m generalizing a with
  | nil =>
    rw [List.length_nil, mul_zero, pow_zero, mul_one, messagePoly, zero_mul, add_zero, absorbAll_nil, sub_self]
    exact dvd_zero _
  | cons b m ih =>
    have hsplit : toPoly a * X ^ (8 * (m.length + 1)) + (toPoly b * X ^ (8 * m.length) + messagePoly m) * X ^ 24 -
          toPoly (absorbAll (byteStep a b) m) =
        ((toPoly a + toPoly b * X ^ 16) * X ^ 8 - toPoly (byteStep a b)) * X ^ (8 * m.length) +
          (toPoly (byteStep a b) * X ^ (8 * m.length) + messagePoly m * X ^ 24 -
            toPoly (absorbAll (byteStep a b) m)) := by ring
    rw [List.length_cons, messagePoly, absorbAll_cons, hsplit]
    exact dvd_add (Dvd.dvd.mul_right (generator_dvd_byteStep a b) _) (ih _)

/-- Settles O44: each step is congruent to what R91 says, and a 24-bit value is its own remainder. -/
theorem stepsArePolynomialRemainders : Obligations.StepsArePolynomialRemainders := by
  refine ⟨fun a => toPoly_eq_modByMonic (generator_dvd_bitStep a),
    fun s b => toPoly_eq_modByMonic (generator_dvd_byteStep s b), fun m => ?_⟩
  rw [crc24_eq_absorbAll]
  exact toPoly_eq_modByMonic (generator_dvd_absorbAll Config.initValue m)

end Sys2Proof.Claims
end

section
/-!
PROOF. One cycle as the spec's `Step` (spec/41_gen_commands.md R110), the four commands with their words and their runs
(R111 to R114), and what `crc_out` shows after a command (R115) and after a message (R116).
-/

namespace Sys2Proof.Claims
open Sys2Proof.Machine

/-! ## One cycle -/

/-- A cycle with defined inputs is its edge on `CRC`, in every state, and takes no draw (R110). -/
theorem step_of_driven {s : State} {c : DriverCycle} {rest : List DriverCycle} (hdr : s.driver = c :: rest)
    (hd : c.driven = true) (ho : c.observe = true → s.crc ≠ .unwritten) :
    step s = .next (after s 1 rest (crcAfterEdge c.sample s.draws s.crc)) := by
  have hcur : s.current = c := current_of_driver hdr
  rw [step_eq_successor (hcur ▸ ho)]
  simp [successor, after, hcur, hdr, hd]

/-- A run that begins with a step to `after` one cycle. -/
theorem run_succ_eq_after {s : State} {n : Nat} {r rest : List DriverCycle} {c c' : CrcReg}
    (hstep : step s = .next (after s 1 r c))
    (hrest : runFor n (after s 1 r c) = .next (after (after s 1 r c) n rest c')) :
    runFor (n + 1) s = .next (after s (n + 1) rest c') := by
  rw [after_after, Nat.add_comm] at hrest
  exact (run_succ_of_step n hstep).trans hrest

/-- The bits `w[9:8]` that R110 decides on are the ports `init` and `data_valid` (R60). -/
theorem extractLsb'_opcode_commandWord (i v : Bool) (d : Byte) :
    (commandWord i v d).extractLsb' 8 2 = BitVec.ofBool i ++ BitVec.ofBool v := by
  rw [commandWord, BitVec.extractLsb'_append_eq_of_le (Nat.le_refl 8)]
  exact BitVec.extractLsb'_eq_self

/-- R110's four branches are the decoder's four rows. -/
theorem specStep_of_no_reset (c : CrcReg) (w : CommandWord) : specStep c false w = effect (decode w) c := by
  obtain ⟨i, v, d, rfl⟩ := exists_eq_commandWord w
  have hdata : (commandWord i v d).extractLsb' 0 8 = d := fieldD_commandWord i v d
  simp only [specStep, extractLsb'_opcode_commandWord, hdata]
  cases i <;> cases v
  · rw [decode_nop]; rfl
  · rw [decode_feed]; cases c <;> rfl
  · rw [decode_init]; rfl
  · rw [decode_initfeed]; rfl

/-- With `rst` and a word on the ports, the edge is `Step(S, rst, w)` (R110). -/
theorem crcAfterEdge_eq_specStep (r : Bool) (w : CommandWord) (draws : Nat) (c : CrcReg) :
    crcAfterEdge (if r then .reset else .command w) draws c = specStep c r w := by
  cases r with
  | false => exact (specStep_of_no_reset c w).symm
  | true => rfl

theorem driven_defined (r i v obs : Bool) (d : Byte) :
    (DriverCycle.mk (.defined r) (.defined i) (.defined v) (.defined d) obs).driven = true := by
  cases r <;> rfl

/-- Settles O7: the cycle is the edge of the sampled ports, whose word is w. -/
theorem stepIsTheSpecsStep : Obligations.StepIsTheSpecsStep := by
  intro s r obs w rest hdr ho
  rw [step_of_driven hdr (driven_defined ..) ho, sample_defined, commandWord_fields, crcAfterEdge_eq_specStep]

/-! ## The words of the four commands (R62) -/

theorem decode_eq_nop_iff (w : CommandWord) : decode w = .nop ↔ w &&& 0x300 = 0x000 := by
  rw [match_iff_mnemonic w (r := ("NOP", 0x000, 0x300)) (by decide)]
  cases decode w <;> simp [Instr.mnemonic]

theorem decode_eq_feed_iff (w : CommandWord) : (∃ b, decode w = .feed b) ↔ w &&& 0x300 = 0x100 := by
  rw [match_iff_mnemonic w (r := ("FEED", 0x100, 0x300)) (by decide)]
  cases decode w <;> simp [Instr.mnemonic]

theorem decode_eq_init_iff (w : CommandWord) : decode w = .init ↔ w &&& 0x300 = 0x200 := by
  rw [match_iff_mnemonic w (r := ("INIT", 0x200, 0x300)) (by decide)]
  cases decode w <;> simp [Instr.mnemonic]

theorem decode_eq_initfeed_iff (w : CommandWord) : (∃ b, decode w = .initfeed b) ↔ w &&& 0x300 = 0x300 := by
  rw [match_iff_mnemonic w (r := ("INITFEED", 0x300, 0x300)) (by decide)]
  cases decode w <;> simp [Instr.mnemonic]

/-! ## INIT and INITFEED -/

/-- INIT leaves the CRC of the empty message (R113). -/
theorem crc24_nil : crc24 [] = 0xB704CE := crc24_eq_absorbAll []

/-- Settles O11: INIT's row, its effect, and the empty message's CRC. -/
theorem initStartsAMessage : Obligations.InitStartsAMessage := by
  refine ⟨decode_eq_init_iff, exec_eq_next .init, fun s t h => ?_⟩
  rw [exec_eq_next] at h
  cases h
  rw [crc24_nil]
  exact ⟨rfl, rfl⟩

/-- Settles O12: INITFEED's row and effect; the runs of the two programs are their effects in order. -/
theorem initfeedStartsWithAByte : Obligations.InitfeedStartsWithAByte := by
  refine ⟨decode_eq_initfeed_iff, fun b => decode_encode (.initfeed b), fun s b => exec_eq_next (.initfeed b) s,
    fun s b rest => ?_, ?_, ?_, ?_⟩
  · exact ⟨_, _, run_presentCommands (is := [.initfeed b]) rfl, run_presentCommands (is := [.init, .feed b]) rfl,
      rfl, rfl⟩
  all_goals decide

/-! ## FEED -/

/-- R112: FEEDs in consecutive cycles absorb their bytes in order. -/
theorem run_feeds {s : State} {v : Bits24} {m : List Byte} {rest : List DriverCycle} (hc : s.crc = .value v)
    (hdr : s.driver = presentCommands (m.map .feed) ++ rest) :
    runFor m.length s = .next (after s m.length rest (.value (absorbAll v m))) := by
  have hrun := run_presentCommands hdr
  rwa [List.length_map, hc, foldl_effect_feed] at hrun

/-- Settles O10: FEED's row, its effect on either kind of register, the two fixed points, and the run of FEEDs. -/
theorem feedAbsorbsOneByte : Obligations.FeedAbsorbsOneByte := by
  refine ⟨decode_eq_feed_iff, fun b => decode_encode (.feed b), fun s v b hc => ?_, fun s b hc => ?_,
    byteStep_zero_eq_self_iff, by decide, by decide, by decide, fun s v m rest hc hdr => run_feeds hc hdr⟩
  · rw [exec_eq_next, hc]
    rfl
  · rw [exec_eq_next]
    exact congrArg Host.Outcome.next (State.eq_of_fields (by rw [hc]; rfl) rfl rfl rfl)

/-! ## NOP -/

/-- R111: words of NOP in consecutive cycles, whatever their data bits, hold `CRC`. -/
theorem run_nops {s : State} {ws : List CommandWord} {rest : List DriverCycle} (hnop : ∀ w ∈ ws, decode w = .nop)
    (hdr : s.driver = presentWords ws ++ rest) :
    runFor ws.length s = .next (after s ws.length rest s.crc) := by
  induction ws generalizing s with
  | nil => exact congrArg Host.Outcome.next (State.eq_of_fields rfl rfl hdr rfl)
  | cons w ws ih =>
    obtain ⟨hw, hws⟩ := List.forall_mem_cons.1 hnop
    have hstep : step s = .next (after s 1 (presentWords ws ++ rest) s.crc) := by
      rw [step_of_driven hdr (by simp [DriverCycle.driven]) (by simp), ofWord_sample, crcAfterEdge, hw]
      rfl
    exact run_succ_eq_after hstep (ih hws rfl)

/-- Settles O9: NOP's row, its effect, and the run of NOPs. -/
theorem nopHoldsTheCrc : Obligations.NopHoldsTheCrc :=
  ⟨decode_eq_nop_iff, exec_eq_next .nop,
    fun _ _ _ hws hdr => run_nops (fun w hmem => (decode_eq_nop_iff w).2 (hws w hmem)) hdr⟩

/-! ## What `crc_out` shows -/

theorem crcOut_eq_error_iff (s : State) : s.crcOut = .error .crcOutUnwritten ↔ s.crc = .unwritten := by
  refine ⟨fun h => ?_, crcOut_unwritten⟩
  cases hc : s.crc with
  | unwritten => rfl
  | value v =>
    rw [crcOut_value hc] at h
    cases h

/-- A command and NOPs behind it: its effect on `CRC` stays (R111, R115). -/
theorem run_command_nops {s : State} {i : Instr} {ws : List CommandWord} {rest : List DriverCycle}
    (hnop : ∀ w ∈ ws, decode w = .nop) (hdr : s.driver = .ofWord (encode i) :: (presentWords ws ++ rest)) :
    runFor (ws.length + 1) s = .next (after s (ws.length + 1) rest (effect i s.crc)) :=
  run_succ_eq_after (step_presentCommand hdr) (run_nops hnop rfl)

/-- Settles O22: the port shows `CRC` alone, and after the command the first k NOPs are such a run. -/
theorem resultIsVisibleFromTheNextCycle : Obligations.ResultIsVisibleFromTheNextCycle := by
  refine ⟨fun _ _ => rfl, crcOut_eq_ok_iff, crcOut_eq_error_iff, fun s i v ws rest heff hnop hdr k hk => ?_⟩
  have hsplit : presentWords ws ++ rest = presentWords (ws.take k) ++ (presentWords (ws.drop k) ++ rest) := by
    rw [← List.append_assoc, presentWords, presentWords, presentWords, ← List.map_append, List.take_append_drop]
  rw [hsplit] at hdr
  have hrun := run_command_nops (fun w hmem => hnop w (List.mem_of_mem_take hmem)) hdr
  rw [List.length_take_of_le hk, heff] at hrun
  exact ⟨_, hrun, rfl, rfl⟩

/-! ## The message law -/

/-- The edge that starts a message does not read the old `CRC` (R150, R113, R114). -/
theorem crcAfterEdge_eq_of_starts {c : DriverCycle} {m0 : List Byte} (draws : Nat) (r r' : CrcReg)
    (h : c.starts = some m0) : crcAfterEdge c.sample draws r = crcAfterEdge c.sample draws r' := by
  cases hs : c.sample with
  | reset => rfl
  | command w =>
    cases hw : decode w with
    | nop => simp [DriverCycle.starts, hs, hw] at h
    | feed b => simp [DriverCycle.starts, hs, hw] at h
    | init => simp only [crcAfterEdge, hw, effect]
    | initfeed b => simp only [crcAfterEdge, hw, effect]
  | undefined => rfl

/-- The edge that starts a message leaves the CRC of the message's first bytes, whatever `CRC` held (R154). -/
theorem crcAfterEdge_of_starts {c : DriverCycle} {m0 : List Byte} (draws : Nat) (r : CrcReg)
    (h : c.starts = some m0) : crcAfterEdge c.sample draws r = .value (crc24 m0) := by
  calc crcAfterEdge c.sample draws r
      = crcAfterEdge c.sample draws (crcOfMessage none) := crcAfterEdge_eq_of_starts draws r _ h
    _ = crcOfMessage (messageAfter none c) := crcAfterEdge_crcOfMessage draws none (driven_of_starts h)
    _ = .value (crc24 m0) := by rw [messageAfter_of_starts none h, crcOfMessage]

/-- NOPs and FEEDs go on with the message whose CRC the register holds (R43, R116). -/
theorem run_carried_of_message {s : State} {cs rest : List DriverCycle} {m0 m : List Byte}
    (hc : s.crc = .value (crc24 m0)) (hm : carried cs = some m) (hdr : s.driver = cs ++ rest) :
    runFor cs.length s = .next (after s cs.length rest (.value (crc24 (m0 ++ m)))) := by
  have hrun := run_eq_after (some m0) hc hdr (driven_of_carried hm) fun _ _ _ => by simp [hc]
  rwa [foldl_messageAfter_of_carried _ hm] at hrun

/-- Settles O29: the start gives the register a message's first bytes, and the other cycles add theirs. -/
theorem messageLaw : Obligations.MessageLaw := by
  intro s start cs rest m0 m hstart hm hdr ho
  have hstep : step s = .next (after s 1 (cs ++ rest) (.value (crc24 m0))) := by
    rw [step_of_driven hdr (driven_of_starts hstart) ho, crcAfterEdge_of_starts _ _ hstart]
  exact ⟨run_succ_eq_after hstep (run_carried_of_message rfl hm rfl), rfl⟩

end Sys2Proof.Claims
end

section
/-!
PROOF. The input duties of the driver (spec/60_exceptions.md R133, R141): the precedence of defined inputs, and the free
value an undefined one leaves, in one cycle and in every cycle of an exhausted driver.
-/

namespace Sys2Proof.Claims
open Sys2Proof.Machine

/-! ## Defined inputs (R133) -/

/-- R133 below `rst`: the decoded command's effect, by `init` first and then by `data_valid`. -/
theorem effect_decode_commandWord (i v : Bool) (d : Byte) (c : CrcReg) :
    effect (decode (commandWord i v d)) c =
      if i then .value (if v then byteStep 0xB704CE d else 0xB704CE)
      else if v then effect (.feed d) c
      else c := by
  cases i <;> cases v
  · rw [decode_nop]; rfl
  · rw [decode_feed]; rfl
  · rw [decode_init]; rfl
  · rw [decode_initfeed]; rfl

/-- Settles O8: the edge is a reset where `rst` is 1, and the command of the other ports where it is 0. -/
theorem inputsHaveFixedPrecedence : Obligations.InputsHaveFixedPrecedence := by
  intro s r i v d rest
  rw [step_of_driven rfl (driven_defined r i v false d) nofun, sample_defined]
  cases r with
  | true => rfl
  | false => exact congrArg (fun c => Host.Outcome.next (after s 1 rest c)) (effect_decode_commandWord i v d s.crc)

/-! ## Undefined inputs (R141) -/

/-- The inputs a driver must define: the three control ports, and the data port where it is valid (R141). -/
theorem sample_eq_undefined_iff (c : DriverCycle) :
    c.sample = .undefined ↔ c.rst = .undefined ∨ c.init = .undefined ∨ c.dataValid = .undefined ∨
      (c.dataValid = .defined true ∧ c.dataIn = .undefined) := by
  obtain ⟨rst, init, dataValid, dataIn, obs⟩ := c
  cases rst with
  | undefined => simp [DriverCycle.sample]
  | defined r =>
    cases init with
    | undefined => simp [DriverCycle.sample]
    | defined i =>
      cases dataValid with
      | undefined => simp [DriverCycle.sample]
      | defined v =>
        cases v with
        | false =>
          obtain ⟨x, hx⟩ := sample_of_not_valid r i obs dataIn
          cases r <;> simp [hx]
        | true =>
          cases dataIn with
          | undefined => simp [DriverCycle.sample]
          | defined d => cases r <;> simp [sample_defined]

theorem driven_iff_sample_ne_undefined (c : DriverCycle) : c.driven = true ↔ c.sample ≠ .undefined :=
  decide_eq_true_iff

/-- An undefined input makes the cycle's edge one with a free value (R141). -/
theorem step_of_undefined {s : State} (hs : s.current.sample = .undefined)
    (ho : s.current.observe = true → s.crc ≠ .unwritten) : step s = .next s.nextCycle.undefinedEdge := by
  rw [step_of_allowed ho, hs, clockEdge]

/-- Settles O23: the inputs the statement names are those without which the sample is undefined. -/
theorem undefinedInputsGiveAFreeValue : Obligations.UndefinedInputsGiveAFreeValue := by
  refine ⟨fun s c rest hdr ho hundef => ?_, fun c => ?_⟩
  · have hcur : s.current = c := current_of_driver hdr
    have hs : s.current.sample = .undefined := hcur ▸ (sample_eq_undefined_iff c).2 hundef
    rw [step_of_undefined hs (hcur ▸ ho), State.undefinedEdge, State.nextCycle, hdr, List.tail_cons]
  · rw [driven_iff_sample_ne_undefined, Ne, sample_eq_undefined_iff]
    simp only [not_or, not_and, ne_eq]

/-! ## A driver with nothing left -/

/-- A cycle of an exhausted driver takes one draw, and leaves the driver exhausted (log entry 2). -/
theorem step_of_exhausted {s : State} (h : s.driver = []) : step s = .next s.nextCycle.undefinedEdge := by
  have hcur : s.current = .undriven := current_of_nil h
  exact step_of_undefined (hcur ▸ undriven_sample) (by simp [hcur, DriverCycle.undriven])

/-- Settles O24: by induction on the cycles; the last one's draw is what `CRC` holds. -/
theorem exhaustedDriverPresentsNothing : Obligations.ExhaustedDriverPresentsNothing := by
  intro s h n
  induction n generalizing s with
  | zero => exact ⟨_, run_succ_of_step 0 (step_of_exhausted h), rfl, by simp [h], rfl⟩
  | succ n ih =>
    obtain ⟨t, hrun, hcrc, hdriver, hcycle⟩ := ih s.nextCycle.undefinedEdge (by simp [h])
    refine ⟨t, (run_succ_of_step (n + 1) (step_of_exhausted h)).trans hrun, ?_, hdriver, ?_⟩
    · rw [hcrc, undefinedEdge_draws, nextCycle_draws, Nat.add_assoc, Nat.add_comm 1]
    · rw [hcycle, undefinedEdge_cycle, nextCycle_cycle]
      omega

end Sys2Proof.Claims
end

section
/-!
PROOF. Reset, power-up and hazards (spec/70_reset_and_hazards.md R150 to R157): the values after reset and after
power-up, what a start of message makes of any state, and commands in consecutive cycles.
-/

namespace Sys2Proof.Claims
open Sys2Proof.Machine

/-! ## Reset and power-up values (R151, R152) -/

/-- Settles O16: the port shows the register's value or faults, and a reset edge writes the reset value. -/
theorem resetAndPowerUpValues : Obligations.ResetAndPowerUpValues :=
  ⟨reset_crc, crcOut_value reset_crc, powerUp_crc, crcOut_unwritten powerUp_crc,
    fun s => ⟨s.resetEdge, rfl, resetEdge_crc s⟩⟩

/-- Settles O26: the register holds a value after reset, and none after power-up. -/
theorem resetStateIsWritten : Obligations.ResetStateIsWritten := by
  refine ⟨(written_iff _).2 ?_, Bool.eq_false_iff.2 fun hw => ?_⟩
  · rw [reset_crc]
    exact nofun
  · exact (written_iff _).1 hw powerUp_crc

/-! ## A start of message (R150, R154, R157) -/

/-- A start leaves the CRC of its first bytes, and of the old state everything but `CRC` (R154). -/
theorem step_of_starts {s : State} {c : DriverCycle} {m0 : List Byte} {rest : List DriverCycle}
    (hdr : s.driver = c :: rest) (ho : c.observe = true → s.crc ≠ .unwritten) (hstart : c.starts = some m0) :
    step s = .next (after s 1 rest (.value (crc24 m0))) := by
  rw [step_of_driven hdr (driven_of_starts hstart) ho, crcAfterEdge_of_starts _ _ hstart]

/-- Settles O28: both runs step to one state, that of the start, in which the old `CRC` does not occur. -/
theorem startDiscardsTheOldMessage : Obligations.StartDiscardsTheOldMessage := by
  intro s a b c m0 rest hdr ho hstart
  have hstep (r : CrcReg) : step { s with crc := r } = .next (after s 1 rest (.value (crc24 m0))) :=
    step_of_starts hdr (by simp [ho]) hstart
  refine ⟨⟨_, run_succ_of_step 0 (hstep a), rfl⟩, fun n => ?_⟩
  exact (run_succ_of_step n (hstep a)).trans (run_succ_of_step n (hstep b)).symm

/-! ## Reset edges (R150) -/

theorem starts_resetWith (w : CommandWord) : (DriverCycle.resetWith w).starts = some [] := by
  simp [DriverCycle.starts]

/-- R150: one reset edge or more, with any words, leave the CRC of the empty message, whatever `CRC` held. -/
theorem run_resets {s : State} (w : CommandWord) {ws : List CommandWord} {rest : List DriverCycle}
    (hdr : s.driver = (w :: ws).map DriverCycle.resetWith ++ rest) :
    runFor (ws.length + 1) s = .next (after s (ws.length + 1) rest (.value (crc24 []))) := by
  induction ws generalizing s w with
  | nil => exact run_succ_eq_after (step_of_starts hdr (by simp) (starts_resetWith w)) rfl
  | cons w' ws ih => exact run_succ_eq_after (step_of_starts hdr (by simp) (starts_resetWith w)) (ih w' rfl)

/-- Settles O17: the edge writes `CRC` alone; a run of reset edges leaves the CRC of the empty message. -/
theorem resetLoadsInitValue : Obligations.ResetLoadsInitValue := by
  refine ⟨fun _ => rfl, fun s ws rest hne hdr => ?_⟩
  obtain ⟨w, ws, rfl⟩ := List.exists_cons_of_ne_nil hne
  have hrun := run_resets w hdr
  rw [crc24_nil] at hrun ⊢
  exact ⟨hrun, rfl, rfl⟩

/-! ## Commands in consecutive cycles (R156) -/

/-- Settles O15: the run of the presented commands is their effects on `CRC`, in order. -/
theorem anyCommandSequenceCompletes : Obligations.AnyCommandSequenceCompletes :=
  fun _ _ _ hdr => run_presentCommands hdr

end Sys2Proof.Claims
end
